-- ==== Sys2Proof/Word.lean ====
section
/-! DEFINITION. The byte, the one word the BCE's interface is made of (30_encoding.md R80, 00_scope.md R12). -/

namespace Sys2Proof

/-- One byte of a frame: an integer 0 to 255 (R12), held as its eight bits. -/
abbrev Byte := BitVec 8

end Sys2Proof
end

