-- ==== Sys2Proof/Config.lean ====
section
/-! DEFINITION. What the implementation fixes: the parameter table of 00_scope.md R5, as far as a number of it is used
by more than one file. Register widths stand in the types of Machine/State.lean. -/

namespace Sys2Proof

/-- LOADCAL's payload: 24 + 1 + 7 bytes (R5, R85). -/
abbrev Config.calPayloadBytes : Nat := 32

/-- COMPT's and COMPP's payload (R5, R85). -/
abbrev Config.samplePayloadBytes : Nat := 3

/-- COMPH's payload (R5, R85). -/
abbrev Config.humidityPayloadBytes : Nat := 2

/-- `HOST_CYCLE_PERIOD`, the one parameter the spec leaves OPEN (92_eei_decisions.md D33, 93_implementation_defined.md
U12): the time between the host's measurement cycles. No rule reads it (R5, R240), and no definition of the model does. -/
opaque Config.hostCyclePeriod : Nat

end Sys2Proof
end

