-- ==== Sys2Proof/Syntax.lean ====
section
/-! DEFINITION. The command set BCE-CMD v1 as syntax: frames (30_encoding.md R80) and the four commands of the opcode
map (R85, opcode_table.json), one constructor each. -/

namespace Sys2Proof

/-- A command as the host delivers it: a finite byte sequence, the opcode byte first (R80). It may be empty. -/
abbrev Frame := List Byte

/-- The bytes after the opcode byte: `PL[i] = F[i+1]` (R80). -/
abbrev Payload := List Byte

/-- The commands of the opcode map (R85). Every byte value is legal in every payload position (R80). A payload of a
length other than the required one is still a command of that name: its own pseudocode answers it with E_SHORT or
E_FRAME (R87, R100, R130, R140, R155); `Instr.wellFormed` is the exact length. -/
inductive Instr where
  /-- LOADCAL, OP 0x01, format FC (R82): the 32 calibration bytes. -/
  | loadcal (payload : Payload)
  /-- COMPT, OP 0x02, format FS3 (R83): the 3 bytes of 0xFA to 0xFC. -/
  | compt (payload : Payload)
  /-- COMPP, OP 0x03, format FS3 (R83): the 3 bytes of 0xF7 to 0xF9. -/
  | compp (payload : Payload)
  /-- COMPH, OP 0x04, format FS2 (R84): the 2 bytes of 0xFD to 0xFE. -/
  | comph (payload : Payload)
  deriving DecidableEq, Repr

/-- The command's payload. -/
def Instr.payload : Instr → Payload
  | .loadcal pl => pl
  | .compt pl => pl
  | .compp pl => pl
  | .comph pl => pl

/-- The payload length a command requires, `need(OP)` of 60_exceptions.md R182 (30_encoding.md R85). -/
def Instr.need : Instr → Nat
  | .loadcal _ => Config.calPayloadBytes
  | .compt _ => Config.samplePayloadBytes
  | .compp _ => Config.samplePayloadBytes
  | .comph _ => Config.humidityPayloadBytes

end Sys2Proof
end

