-- ==== Sys2Proof/WellFormed.lean ====
section
/-! DEFINITION. A command is well formed when its payload has exactly the length its opcode requires
(30_encoding.md R87: "Only the exact length is a valid command"). There is no other static check: every byte value is
legal in every payload position (R80). -/

namespace Sys2Proof

/-- The payload is not too short: otherwise the command fails with E_SHORT (R87). -/
def Instr.longEnough (i : Instr) : Bool := decide (i.need ≤ i.payload.length)

/-- The payload is not too long: otherwise the command fails with E_FRAME (R87). -/
def Instr.notTooLong (i : Instr) : Bool := decide (i.payload.length ≤ i.need)

/-- The command is one of R85's rows with exactly its payload. -/
def Instr.wellFormed (i : Instr) : Bool := i.longEnough && i.notTooLong

end Sys2Proof
end

