-- ==== Sys2Proof/Decode.lean ====
section
/-! DEFINITION. The command decoder, total on any bytes and rejecting by name, and the encoder
(30_encoding.md R80 to R89). -/

namespace Sys2Proof

/-- Why a frame is no command at all. The BCE answers either with a result code (60_exceptions.md R182, checks 1 and
2); neither stops the machine. -/
inductive Reject where
  /-- The frame has no byte, so no opcode (R88). -/
  | emptyFrame
  /-- The opcode byte is not in the opcode map (R86). -/
  | illegalOpcode (op : Byte)
  deriving DecidableEq, Repr

/-- The opcode map (R85): the opcode byte is compared as a whole (R81), and what follows it is the payload (R80). The
payload's length is checked by the command itself (R100, R130, R140, R155), after these two checks (R182). -/
def decode : Frame → Except Reject Instr
  | [] => .error .emptyFrame
  | op :: payload =>
    match op.toNat with
    | 0x01 => .ok (.loadcal payload)
    | 0x02 => .ok (.compt payload)
    | 0x03 => .ok (.compp payload)
    | 0x04 => .ok (.comph payload)
    | _ => .error (.illegalOpcode op)

/-- The frame of a command: formats FC, FS3 and FS2 (R82 to R84), the opcode byte and then the payload. -/
def encode : Instr → Frame
  | .loadcal payload => 0x01#8 :: payload
  | .compt payload => 0x02#8 :: payload
  | .compp payload => 0x03#8 :: payload
  | .comph payload => 0x04#8 :: payload

/-- The frame length an opcode stands for: 33, 4, 4 or 3 bytes (R89); none for an illegal opcode (R86). -/
def frameLength (op : Byte) : Option Nat :=
  match op.toNat with
  | 0x01 => some 33
  | 0x02 => some 4
  | 0x03 => some 4
  | 0x04 => some 3
  | _ => none

/-- The low `8 * k` bits of `w` as `k` bytes, the least significant first: the order in which opcode_table.json numbers
an instruction's bits. -/
def bytesOfNat : Nat → Nat → List Byte
  | 0, _ => []
  | k + 1, w => BitVec.ofNat 8 w :: bytesOfNat k (w / 256)

/-- The frame of an instruction whose low `nbits` bits are `w`, every bit above them 0: at least the bytes the table
gives, and filled with zero bytes up to the length its opcode stands for (R89). -/
def tableFrame (nbits w : Nat) : Frame :=
  let given := w % 2 ^ nbits
  let n := (nbits + 7) / 8
  match frameLength (BitVec.ofNat 8 given) with
  | some len => bytesOfNat (max n len) given
  | none => bytesOfNat n given

/-- The instruction the decoder reads from an opcode-table word. -/
def decodeTableWord (nbits w : Nat) : Option Instr :=
  match decode (tableFrame nbits w) with
  | .ok i => some i
  | .error _ => none

end Sys2Proof
end

