-- ==== Sys2Proof/Machine/State.lean ====
section
/-! DEFINITION. Everything the spec gives the machine, as plain data (10_state.md), the reasons it can stop, and the
state after reset (R44). -/

namespace Sys2Proof.Machine

/-- The calibration register file: the 18 coefficients in the source's table order, each held as the integer its decode
rule gives (10_state.md R22). `Cal.InRange` (Machine/Calibration.lean) is R22's range column. -/
structure Cal where
  t1 : Int
  t2 : Int
  t3 : Int
  p1 : Int
  p2 : Int
  p3 : Int
  p4 : Int
  p5 : Int
  p6 : Int
  p7 : Int
  p8 : Int
  p9 : Int
  h1 : Int
  h2 : Int
  h3 : Int
  h4 : Int
  h5 : Int
  h6 : Int
  deriving DecidableEq, Repr

/-- A register's contents as the host reads them: a whole register of its width (R40, 20_memory.md R53), a signed one as
its two's-complement pattern (R39). -/
structure RegWord where
  width : Nat
  bits : BitVec width
  deriving DecidableEq, Repr

/-- One thing the host does to the BCE (60_exceptions.md R198, 70_reset_and_hazards.md R220). -/
inductive HostAction where
  /-- Deliver one frame (30_encoding.md R80). -/
  | deliver (frame : Frame)
  /-- Read the register of this number (R39, R40); only ever between two commands (D36). -/
  | read (number : Nat)
  /-- Assert the block's reset, or power-cycle it: the two are indistinguishable (R220). -/
  | reset
  deriving DecidableEq, Repr

/-- The result codes (60_exceptions.md R181); `ResultCode.code` (Machine/Flags.lean) is the number in STATUS.CODE. -/
inductive ResultCode where
  /-- Success. -/
  | ok
  /-- E_OPCODE: the opcode is not in the opcode map. -/
  | opcode
  /-- E_SHORT: fewer payload bytes than the command requires (the source's `TransportError`, R189). -/
  | short
  /-- E_FRAME: an empty frame, or more payload bytes than required. -/
  | frame
  /-- E_CALLOCKED: LOADCAL while a calibration set is loaded. -/
  | calLocked
  /-- E_NOCAL: compensation without a calibration set. -/
  | noCal
  /-- E_NOTFINE: COMPP or COMPH with no `t_fine`. -/
  | noTfine
  deriving DecidableEq, Repr

/-- The machine. The first block is the BCE's registers; the second is the host's side, which a reset leaves alone
(10_state.md R45). -/
structure State where
  /-- CAL (R22); holds a value when CAL_VALID = 1 (R24). -/
  cal : Cal
  /-- RAW_T, 20 bits unsigned (R25); holds a value when TV = 1 (R30). -/
  rawT : BitVec 20
  /-- RAW_P, 20 bits unsigned (R25); holds a value when PV = 1 (R31). -/
  rawP : BitVec 20
  /-- RAW_H, 16 bits unsigned (R25); holds a value when HV = 1 (R32). -/
  rawH : BitVec 16
  /-- TFINE, 32-bit two's complement (R26); holds a value when TV = 1. -/
  tfine : BitVec 32
  /-- TEMP, 32-bit two's complement, in 0.01 °C (R27); holds a value when TV = 1. -/
  temp : BitVec 32
  /-- PRESS, 128-bit two's complement, Q24.8 Pa (R28); holds a value when PV = 1. -/
  press : BitVec 128
  /-- HUM, 32 bits unsigned, Q22.10 %RH (R29); holds a value when HV = 1. -/
  hum : BitVec 32
  /-- STATUS, 16 bits (R33); its fields are read and written through Machine/Flags.lean. -/
  status : BitVec 16
  /-- The index of the next command in the host's command list, advanced by one per delivered command (R41). -/
  position : Nat
  /-- What the host has still to do, the next action first (R41, R45). -/
  pending : List HostAction
  /-- What register reads have given the host, oldest first: the host's copy (R45), not a register of the BCE. -/
  answers : List RegWord
  deriving DecidableEq, Repr

/-- Why the machine stops. No command ever stops it (R180). -/
inductive Fault where
  /-- Raised by the read port, never by a command, when the host reads a register whose "valid when" condition is false,
  or an unassigned number. The spec itself says the model stops here: "A read of it is a fault of the model, never a
  value" (R40, D17; U1, U2 and U13 of 93_implementation_defined.md, where a fault is "the model stops with an error, no
  value is produced"). Safe: the model stops where the hardware goes on. -/
  | noValue (number : Nat)
  deriving DecidableEq, Repr

/-- Why an instruction has no meaning. -/
inductive Refusal where
  /-- Raised only by an arm of `exec` whose instruction is not modelled yet. Every arm has its meaning, so nothing
  raises it. Safe. -/
  | notModelled (mnemonic : String)
  deriving DecidableEq, Repr

/-- All 18 coefficients 0: what the CAL bits are at reset (DESIGN CHOICE, log entry 2; never readable, R44). -/
def Cal.zero : Cal :=
  ⟨0, 0, 0, 0, 0, 0, 0, 0, 0, 0, 0, 0, 0, 0, 0, 0, 0, 0⟩

/-- The machine right after power-on reset (10_state.md R44, 70_reset_and_hazards.md R221): STATUS is 0x0000, so no data
register holds a value. The bits behind the cleared valid bits are 0 (DESIGN CHOICE, log entry 2). The host has nothing
pending and has delivered and read nothing (log entries 3 and 4). -/
def State.reset : State where
  cal := Cal.zero
  rawT := 0
  rawP := 0
  rawH := 0
  tfine := 0
  temp := 0
  press := 0
  hum := 0
  status := 0x0000
  position := 0
  pending := []
  answers := []

end Sys2Proof.Machine
end

