-- ==== Sys2Proof/Machine/Flags.lean ====
section
/-! DEFINITION. The status register's fields: where each lies in STATUS, how it is read and written
(10_state.md R33 to R38), and the numbers of the result codes (60_exceptions.md R181). -/

namespace Sys2Proof.Machine

/-- The fields of STATUS, in the order of R33's table. -/
inductive StatusField where
  | calValid | tv | pv | hv | errSeen | pz | hcl | code | reserved
  deriving DecidableEq, Repr

/-- The field's lowest bit (R33). -/
def StatusField.lo : StatusField → Nat
  | .calValid => 0
  | .tv => 1
  | .pv => 2
  | .hv => 3
  | .errSeen => 4
  | .pz => 5
  | .hcl => 6
  | .code => 8
  | .reserved => 12

/-- The field's width in bits (R33). -/
def StatusField.width : StatusField → Nat
  | .calValid => 1
  | .tv => 1
  | .pv => 1
  | .hv => 1
  | .errSeen => 1
  | .pz => 1
  | .hcl => 2
  | .code => 4
  | .reserved => 4

/-- The field's bits, read as an unsigned number. -/
def readField (status : BitVec 16) (f : StatusField) : Nat :=
  (status.extractLsb' f.lo f.width).toNat

/-- Ones in the field's bits. -/
def fieldMask (f : StatusField) : BitVec 16 :=
  (BitVec.allOnes f.width).setWidth 16 <<< f.lo

/-- STATUS with one field's bits replaced by `v` and every other bit kept. -/
def writeField (status : BitVec 16) (f : StatusField) (v : Nat) : BitVec 16 :=
  (status &&& ~~~(fieldMask f)) ||| ((BitVec.ofNat f.width v).setWidth 16 <<< f.lo)

/-- `R.f` of the command rules: a field of STATUS (00_scope.md R12). -/
def State.flag (s : State) (f : StatusField) : Nat := readField s.status f

/-- `R.f <- v` of the command rules. -/
def State.setFlag (s : State) (f : StatusField) (v : Nat) : State :=
  { s with status := writeField s.status f v }

/-- The number of a result code (60_exceptions.md R181). -/
def ResultCode.code : ResultCode → Nat
  | .ok => 0
  | .opcode => 1
  | .short => 2
  | .frame => 3
  | .calLocked => 4
  | .noCal => 5
  | .noTfine => 6

end Sys2Proof.Machine
end

