-- ==== Sys2Proof/Machine/Operands.lean ====
section
/-! DEFINITION. The notation of the rules (00_scope.md R6 to R13) and the operand forms: payload bytes, bit fields,
extension, byte order, and the two raw-sample decodings (41_compensation.md R131, R132). -/

namespace Sys2Proof.Machine

/-- `x >> k`: the floor right shift `⌊x / 2^k⌋` (R7). -/
def asr (x : Int) (k : Nat) : Int := Int.fdiv x (2 ^ k)

/-- `x << k`: `x * 2^k`, exact (R8). -/
def shl (x : Int) (k : Nat) : Int := x * 2 ^ k

/-- `fdiv(a, b)`: floor division, rounding toward −∞ (R9). No rule applies it with `b = 0` (R143). -/
def floorDiv (a b : Int) : Int := Int.fdiv a b

/-- `clamp(v, lo, hi)` over a closed range (R11). -/
def clamp (v lo hi : Int) : Int := if v < lo then lo else if v > hi then hi else v

/-- `v[hi:lo]` of a non-negative integer (R10). -/
def bits (v hi lo : Nat) : Nat := v / 2 ^ lo % 2 ^ (hi - lo + 1)

/-- `zext_N(v)`: the N-bit pattern read as unsigned (R10). -/
def zext (n v : Nat) : Int := bits v (n - 1) 0

/-- `sext_N(v)`: the N-bit pattern read as two's complement (R10). -/
def sext (n v : Nat) : Int := (bits v (n - 1) 0 : Int) - 2 ^ n * (bits v (n - 1) (n - 1) : Int)

/-- `PL[i]` as an integer 0 to 255 (R12). The rules use it only below the payload's length: every command checks its
payload's length first. -/
def byteAt (pl : Payload) (i : Nat) : Nat := (pl.getD i 0).toNat

/-- Little-endian assembly of two bytes, the lower address first (R13). -/
def le16 (b0 b1 : Nat) : Nat := b0 + 256 * b1

/-- Big-endian assembly of two bytes (R13). -/
def be16 (b0 b1 : Nat) : Nat := 256 * b0 + b1

/-- Big-endian assembly of three bytes (R13). -/
def be24 (b0 b1 b2 : Nat) : Nat := 65536 * b0 + 256 * b1 + b2

/-- `raw_tp(PL) = be24(PL[0], PL[1], PL[2]) >> 4`: the 20-bit temperature or pressure sample (R131). -/
def rawTp (pl : Payload) : Nat := be24 (byteAt pl 0) (byteAt pl 1) (byteAt pl 2) / 2 ^ 4

/-- `raw_h(PL) = be16(PL[0], PL[1])`: the 16-bit humidity sample (R132). -/
def rawH (pl : Payload) : Nat := be16 (byteAt pl 0) (byteAt pl 1)

end Sys2Proof.Machine
end

