-- ==== Sys2Proof/Machine/Ops.lean ====
section
/-! DEFINITION. The shared operations: how a command ends (success, failure), its error checks, the register writes, the
host's read port, reset, and what taking the next host action does to the host's side. -/

namespace Sys2Proof.Machine

/-! ## How a command ends -/

/-- `complete()`: CODE becomes 0 and ERR_SEEN is unchanged (60_exceptions.md R184). -/
def State.complete (s : State) : State := s.setFlag .code ResultCode.ok.code

/-- `raise E`, the BCE's one way of taking an exception (R185): CODE becomes the error's number, ERR_SEEN becomes 1, and
nothing else changes. There is no trap entry, handler or saved position, and so no return (R187). -/
def State.fail (e : ResultCode) (s : State) : State :=
  (s.setFlag .code e.code).setFlag .errSeen 1

/-- The end of a command whose first applicable check is `error` (R182, R183): with none, its own writes `done` stand and
it completes; otherwise it fails and none of them does (R186). Every command completes (R180). -/
def endCommand (error : Option ResultCode) (s done : State) : Host.Outcome State Fault Refusal :=
  match error with
  | some e => .next (s.fail e)
  | none => .next done.complete

/-! ## The checks of 60_exceptions.md R182, in the order the commands apply them -/

/-- Checks 3 and 4: too few payload bytes is E_SHORT, too many is E_FRAME. -/
def lengthError (need : Nat) (pl : Payload) : Option ResultCode :=
  if pl.length < need then some .short else if pl.length > need then some .frame else none

/-- Check 5: a calibration set is already loaded (D10). -/
def lockedError (s : State) : Option ResultCode :=
  if s.flag .calValid = 1 then some .calLocked else none

/-- Check 6: no calibration set is loaded (D11). -/
def noCalError (s : State) : Option ResultCode :=
  if s.flag .calValid = 0 then some .noCal else none

/-- Check 7: no `t_fine` has been computed since the calibration was loaded (D12). -/
def noTfineError (s : State) : Option ResultCode :=
  if s.flag .tv = 0 then some .noTfine else none

/-- Checks 1 and 2: what the BCE answers to a frame that is no command (R86, R88). -/
def rejectCode : Reject → ResultCode
  | .emptyFrame => .frame
  | .illegalOpcode _ => .opcode

/-! ## Register writes -/

/-- `CAL.T1 <- C.T1; …; CAL.H6 <- C.H6`: all 18 fields at once (10_state.md R23). -/
def State.storeCal (c : Cal) (s : State) : State := { s with cal := c }

/-- `R.RAW_T <- r; R.TFINE <- tf; R.TEMP <- t` (41_compensation.md R130); the widths are those of 10_state.md R25 to R27,
which hold every value the rules produce (R170). -/
def State.storeTemperature (r : Nat) (tf t : Int) (s : State) : State :=
  { s with rawT := BitVec.ofNat 20 r, tfine := BitVec.ofInt 32 tf, temp := BitVec.ofInt 32 t }

/-- `R.RAW_P <- r; R.PRESS <- p` (R140); PRESS is signed, 128 bits, and not reduced to 32 (10_state.md R28, R146). -/
def State.storePressure (r : Nat) (p : Int) (s : State) : State :=
  { s with rawP := BitVec.ofNat 20 r, press := BitVec.ofInt 128 p }

/-- `R.RAW_H <- r; R.HUM <- h` (R155); HUM is 32 bits unsigned (10_state.md R29). -/
def State.storeHumidity (r : Nat) (h : Int) (s : State) : State :=
  { s with rawH := BitVec.ofNat 16 r, hum := BitVec.ofInt 32 h }

/-! ## The host's read port (10_state.md R39, R40) -/

/-- An integer as the two's-complement or unsigned pattern of a register of `n` bits. -/
def intWord (n : Nat) (v : Int) : RegWord := ⟨n, BitVec.ofInt n v⟩

/-- CAL field number `i` of R22 at its width. -/
def Cal.word (c : Cal) : Nat → Option RegWord
  | 0 => some (intWord 16 c.t1)
  | 1 => some (intWord 16 c.t2)
  | 2 => some (intWord 16 c.t3)
  | 3 => some (intWord 16 c.p1)
  | 4 => some (intWord 16 c.p2)
  | 5 => some (intWord 16 c.p3)
  | 6 => some (intWord 16 c.p4)
  | 7 => some (intWord 16 c.p5)
  | 8 => some (intWord 16 c.p6)
  | 9 => some (intWord 16 c.p7)
  | 10 => some (intWord 16 c.p8)
  | 11 => some (intWord 16 c.p9)
  | 12 => some (intWord 8 c.h1)
  | 13 => some (intWord 16 c.h2)
  | 14 => some (intWord 8 c.h3)
  | 15 => some (intWord 12 c.h4)
  | 16 => some (intWord 12 c.h5)
  | 17 => some (intWord 8 c.h6)
  | _ => none

/-- A register that holds a value while the valid bit is 1, and no value otherwise (R39's last column). -/
def State.validWhen (s : State) (valid : StatusField) (w : Option RegWord) : Option RegWord :=
  if s.flag valid = 1 then w else none

/-- The value the register of this number holds, and none where it holds no value or the number is unassigned
(R39, R40). -/
def State.register (s : State) : Nat → Option RegWord
  | 0x00 => some ⟨16, s.status⟩
  | 0x01 => s.validWhen .tv (some ⟨32, s.tfine⟩)
  | 0x02 => s.validWhen .tv (some ⟨32, s.temp⟩)
  | 0x03 => s.validWhen .pv (some ⟨128, s.press⟩)
  | 0x04 => s.validWhen .hv (some ⟨32, s.hum⟩)
  | 0x05 => s.validWhen .tv (some ⟨20, s.rawT⟩)
  | 0x06 => s.validWhen .pv (some ⟨20, s.rawP⟩)
  | 0x07 => s.validWhen .hv (some ⟨16, s.rawH⟩)
  | n => if 0x10 ≤ n then s.validWhen .calValid (s.cal.word (n - 0x10)) else none

/-- The read port gives the host a value: the host's copy grows, the BCE is as it was (R40, R45). -/
def State.giveAnswer (w : RegWord) (s : State) : State := { s with answers := s.answers ++ [w] }

/-- A host read: it has no side effect on the BCE, and it gives the host the register's value; where there is none the
model faults, as R40 directs (D17; 93_implementation_defined.md U1, U2). What decides is R39's "valid when" condition, and
not whether the register has been written: after a COMPT, PRESS and HUM have no value again (R31, R32). -/
def readRegister (number : Nat) (s : State) : Host.Outcome State Fault Refusal :=
  match s.register number with
  | some w => .next (s.giveAnswer w)
  | none => .fault (.noValue number)

/-! ## Reset, and the host's list of actions -/

/-- Reset (70_reset_and_hazards.md R220, R221): every register as in 10_state.md R44; what is the host's stands as it is
(R45). -/
def State.powerOnReset (s : State) : State :=
  { State.reset with position := s.position, pending := s.pending, answers := s.answers }

/-- The host's next action is taken off its list. -/
def State.takeAction (rest : List HostAction) (s : State) : State := { s with pending := rest }

/-- One command is delivered: the position advances by one, whatever the outcome (10_state.md R41). -/
def State.advance (s : State) : State := { s with position := s.position + 1 }

end Sys2Proof.Machine
end

