-- ==== Sys2Proof/Machine/Calibration.lean ====
section
/-! DEFINITION. The calibration family: the decoder of the 32 calibration bytes, its inverse, and LOADCAL
(40_calibration.md). -/

namespace Sys2Proof.Machine

/-- The range column of 10_state.md R22. -/
abbrev Cal.InRange (c : Cal) : Prop :=
  (0 ≤ c.t1 ∧ c.t1 ≤ 65535) ∧ (-32768 ≤ c.t2 ∧ c.t2 ≤ 32767) ∧ (-32768 ≤ c.t3 ∧ c.t3 ≤ 32767) ∧
  (0 ≤ c.p1 ∧ c.p1 ≤ 65535) ∧ (-32768 ≤ c.p2 ∧ c.p2 ≤ 32767) ∧ (-32768 ≤ c.p3 ∧ c.p3 ≤ 32767) ∧
  (-32768 ≤ c.p4 ∧ c.p4 ≤ 32767) ∧ (-32768 ≤ c.p5 ∧ c.p5 ≤ 32767) ∧ (-32768 ≤ c.p6 ∧ c.p6 ≤ 32767) ∧
  (-32768 ≤ c.p7 ∧ c.p7 ≤ 32767) ∧ (-32768 ≤ c.p8 ∧ c.p8 ≤ 32767) ∧ (-32768 ≤ c.p9 ∧ c.p9 ≤ 32767) ∧
  (0 ≤ c.h1 ∧ c.h1 ≤ 255) ∧ (-32768 ≤ c.h2 ∧ c.h2 ≤ 32767) ∧ (0 ≤ c.h3 ∧ c.h3 ≤ 255) ∧
  (-2048 ≤ c.h4 ∧ c.h4 ≤ 2047) ∧ (-2048 ≤ c.h5 ∧ c.h5 ≤ 2047) ∧ (-128 ≤ c.h6 ∧ c.h6 ≤ 127)

/-- `B1[k]`, sensor register 0x88 + k (R101). -/
def block1 (pl : Payload) (k : Nat) : Nat := byteAt pl k

/-- `B2`, sensor register 0xA1 (R101). -/
def block2 (pl : Payload) : Nat := byteAt pl 24

/-- `B3[k]`, sensor register 0xE1 + k (R101). -/
def block3 (pl : Payload) (k : Nat) : Nat := byteAt pl (25 + k)

/-- A 16-bit unsigned coefficient at offset `k` of block 1 (R102, R105). -/
def word1 (pl : Payload) (k : Nat) : Int := le16 (block1 pl k) (block1 pl (k + 1))

/-- A 16-bit signed coefficient at offset `k` of block 1 (R103, R104, R106 to R113). -/
def signed1 (pl : Payload) (k : Nat) : Int := sext 16 (le16 (block1 pl k) (block1 pl (k + 1)))

/-- `decode_cal(PL)`, one rule of 40_calibration.md for each coefficient, R102 (T1) to R119 (H6). It is total (R120). -/
def decodeCal (pl : Payload) : Cal where
  t1 := word1 pl 0
  t2 := signed1 pl 2
  t3 := signed1 pl 4
  p1 := word1 pl 6
  p2 := signed1 pl 8
  p3 := signed1 pl 10
  p4 := signed1 pl 12
  p5 := signed1 pl 14
  p6 := signed1 pl 16
  p7 := signed1 pl 18
  p8 := signed1 pl 20
  p9 := signed1 pl 22
  h1 := zext 8 (block2 pl)
  h2 := sext 16 (le16 (block3 pl 0) (block3 pl 1))
  h3 := zext 8 (block3 pl 2)
  h4 := sext 12 ((block3 pl 3 <<< 4) ||| (block3 pl 4 &&& 0x0F))
  h5 := sext 12 ((block3 pl 5 <<< 4) ||| (block3 pl 4 >>> 4))
  h6 := sext 8 (block3 pl 6)

/-- `w16(v)`, two's complement for negative `v` (R121). -/
def word16 (v : Int) : List Byte := [BitVec.ofInt 8 (v % 256), BitVec.ofInt 8 (v % 65536 / 256)]

/-- `encode_cal`, the inverse of `decode_cal` on coefficients within their ranges (R121). -/
def encodeCal (c : Cal) : Payload :=
  let h4 := (c.h4 % 4096).toNat
  let h5 := (c.h5 % 4096).toNat
  word16 c.t1 ++ word16 c.t2 ++ word16 c.t3 ++ word16 c.p1 ++ word16 c.p2 ++ word16 c.p3 ++
  word16 c.p4 ++ word16 c.p5 ++ word16 c.p6 ++ word16 c.p7 ++ word16 c.p8 ++ word16 c.p9 ++
  [BitVec.ofInt 8 c.h1] ++
  word16 c.h2 ++
  [BitVec.ofInt 8 c.h3,
   BitVec.ofNat 8 (h4 >>> 4),
   BitVec.ofNat 8 ((h4 &&& 0xF) ||| ((h5 &&& 0xF) <<< 4)),
   BitVec.ofNat 8 (h5 >>> 4),
   BitVec.ofInt 8 (c.h6 % 256)]

/-- LOADCAL: load and decode the calibration set, once until reset (R100). -/
def execLoadcal (pl : Payload) (s : State) : Host.Outcome State Fault Refusal :=
  endCommand ((lengthError Config.calPayloadBytes pl).or (lockedError s)) s
    ((s.storeCal (decodeCal pl)).setFlag .calValid 1)

end Sys2Proof.Machine
end

