-- ==== Sys2Proof/Machine/Compensation.lean ====
section
/-! DEFINITION. The compensation family: the three formulas over the integers and COMPT, COMPP, COMPH
(41_compensation.md). Every shift is the floor shift of 00_scope.md R7 and all arithmetic is exact (R6). -/

namespace Sys2Proof.Machine

/-! ## Temperature (R134, R135) -/

/-- `var1` of R134. -/
def tempVar1 (raw : Int) (c : Cal) : Int := asr ((asr raw 3 - shl c.t1 1) * c.t2) 11

/-- `var2` of R134. -/
def tempVar2 (raw : Int) (c : Cal) : Int :=
  asr (asr ((asr raw 4 - c.t1) * (asr raw 4 - c.t1)) 12 * c.t3) 14

/-- `t_fine = var1 + var2` (R134). -/
def tFine (raw : Int) (c : Cal) : Int := tempVar1 raw c + tempVar2 raw c

/-- `TEMP = (t_fine * 5 + 128) >> 8`, in 0.01 °C (R135). -/
def tempOfTfine (tf : Int) : Int := asr (tf * 5 + 128) 8

/-- `comp_t`: the pair (t_fine, TEMP) (R134, R135). -/
def compT (raw : Int) (c : Cal) : Int × Int := (tFine raw c, tempOfTfine (tFine raw c))

/-! ## Pressure (R141 to R146) -/

/-- `v2` of R141 as it enters the numerator: the P4, P5, P6 part. -/
def pressOffset (c : Cal) (tf : Int) : Int :=
  let v1 := tf - 128000
  v1 * v1 * c.p6 + shl (v1 * c.p5) 17 + shl c.p4 35

/-- `v1` of R141 before its last update: the P2, P3 part. -/
def pressSlope (c : Cal) (tf : Int) : Int :=
  let v1 := tf - 128000
  asr (v1 * v1 * c.p3) 8 + shl (v1 * c.p2) 12

/-- The divisor: `v1` of R141 after its last update, scaled by P1. -/
def pressDivisor (c : Cal) (tf : Int) : Int := asr ((shl 1 47 + pressSlope c tf) * c.p1) 33

/-- The numerator of R141's one division. -/
def pressNumerator (raw : Int) (c : Cal) (tf : Int) : Int :=
  (shl (1048576 - raw) 31 - pressOffset c tf) * 3125

/-- R141 after the division: the P7, P8, P9 correction of `p` and the final scaling. -/
def pressCorrect (c : Cal) (p : Int) : Int :=
  let v1 := asr (c.p9 * asr p 13 * asr p 13) 25
  let v2 := asr (c.p8 * p) 19
  asr (p + v1 + v2) 8 + shl c.p7 4

/-- `comp_p`: the pair (PRESS, PZ) (R141). Where the divisor is exactly 0 it returns 0 without dividing (R143); the
division is floor division (R144); the result is the exact signed integer (R146). -/
def compP (raw : Int) (c : Cal) (tf : Int) : Int × Nat :=
  let v1 := pressDivisor c tf
  if v1 = 0 then (0, 1) else (pressCorrect c (floorDiv (pressNumerator raw c tf) v1), 0)

/-! ## Humidity (R156 to R160) -/

/-- `a` of R156. -/
def humA (raw : Int) (c : Cal) (tf : Int) : Int :=
  let v := tf - 76800
  asr (shl raw 14 - shl c.h4 20 - c.h5 * v + 16384) 15

/-- `b` of R156. -/
def humB (c : Cal) (tf : Int) : Int :=
  let v := tf - 76800
  asr ((asr (asr (v * c.h6) 10 * (asr (v * c.h3) 11 + 32768)) 10 + 2097152) * c.h2 + 8192) 14

/-- `v` of R156 before the clamp. -/
def humUnclamped (raw : Int) (c : Cal) (tf : Int) : Int :=
  let v := humA raw c tf * humB c tf
  v - asr (asr (asr v 15 * asr v 15) 7 * c.h1) 4

/-- HCL for an intermediate `v`: 01 below the range, 10 above it, 00 inside (R156, 10_state.md R37). -/
def humClampCode (v : Int) : Nat := if v < 0 then 1 else if v > 419430400 then 2 else 0

/-- `comp_h`: the pair (HUM, HCL) (R156): clamped to [0, 419430400] (R158) and then shifted right by 12 (R159). -/
def compH (raw : Int) (c : Cal) (tf : Int) : Int × Nat :=
  let v := humUnclamped raw c tf
  (asr (clamp v 0 419430400) 12, humClampCode v)

/-! ## The commands -/

/-- A new cycle begins: the results computed from the old `t_fine` stop being valid (R130, D13). -/
def State.beginCycle (s : State) : State :=
  (((s.setFlag .pv 0).setFlag .hv 0).setFlag .pz 0).setFlag .hcl 0

/-- COMPT: decode the raw temperature and compensate it (R130). -/
def execCompt (pl : Payload) (s : State) : Host.Outcome State Fault Refusal :=
  let r := rawTp pl
  let res := compT r s.cal
  endCommand ((lengthError Config.samplePayloadBytes pl).or (noCalError s)) s
    ((s.storeTemperature r res.1 res.2).setFlag .tv 1).beginCycle

/-- COMPP: decode the raw pressure and compensate it against the current `t_fine` (R140). -/
def execCompp (pl : Payload) (s : State) : Host.Outcome State Fault Refusal :=
  let r := rawTp pl
  let res := compP r s.cal s.tfine.toInt
  endCommand (((lengthError Config.samplePayloadBytes pl).or (noCalError s)).or (noTfineError s)) s
    (((s.storePressure r res.1).setFlag .pz res.2).setFlag .pv 1)

/-- COMPH: decode the raw humidity and compensate it against the current `t_fine` (R155). -/
def execComph (pl : Payload) (s : State) : Host.Outcome State Fault Refusal :=
  let r := rawH pl
  let res := compH r s.cal s.tfine.toInt
  endCommand (((lengthError Config.humidityPayloadBytes pl).or (noCalError s)).or (noTfineError s)) s
    (((s.storeHumidity r res.1).setFlag .hcl res.2).setFlag .hv 1)

end Sys2Proof.Machine
end

