-- ==== Sys2Proof/Machine/Dispatch.lean ====
section
/-! DEFINITION. One arm per command (30_encoding.md R85): each a direct call of its meaning. -/

namespace Sys2Proof.Machine

def exec (i : Instr) (s : State) : Host.Outcome State Fault Refusal :=
  match i with
  | .loadcal pl => Sys2Proof.Machine.execLoadcal pl s
  | .compt pl => Sys2Proof.Machine.execCompt pl s
  | .compp pl => Sys2Proof.Machine.execCompp pl s
  | .comph pl => Sys2Proof.Machine.execComph pl s

end Sys2Proof.Machine
end

