-- ==== Sys2Proof/Machine/HostPort.lean ====
section
/-! DEFINITION. What each host action does to the BCE (60_exceptions.md R198): a delivered frame, a register read, a
reset; and what the BCE does when the host does nothing. -/

namespace Sys2Proof.Machine

/-- The BCE takes one delivered frame: a command executes, and a frame that is no command fails with its result code
(60_exceptions.md R182). -/
def deliver (f : Frame) (s : State) : Host.Outcome State Fault Refusal :=
  match decode f with
  | .ok i => exec i s
  | .error r => .next (s.fail (rejectCode r))

/-- One host action, the rest of the host's list being `rest` (10_state.md R40, R41; 70_reset_and_hazards.md R220). -/
def performAction (a : HostAction) (rest : List HostAction) (s : State) : Host.Outcome State Fault Refusal :=
  match a with
  | .deliver f => deliver f (s.takeAction rest).advance
  | .read n => readRegister n (s.takeAction rest)
  | .reset => .next (s.takeAction rest).powerOnReset

/-- With nothing pending the BCE waits and nothing changes: it has no activity of its own (10_state.md R20; log entry
3). -/
def idle (s : State) : Host.Outcome State Fault Refusal := .next s

/-- `s` with `f` as the frame the host delivers next. -/
def State.withNextFrame (s : State) (f : Frame) : State :=
  { s with pending := .deliver f :: s.pending }

end Sys2Proof.Machine
end

