-- ==== Sys2Proof/Machine/Step.lean ====
section
/-! DEFINITION. One step: the host's next action, taken whole (10_state.md R20, R41; 20_memory.md R61). -/

namespace Sys2Proof.Machine

/-- One step of the machine: actions take effect one at a time, in the host's order (R61). -/
def step (s : State) : Host.Outcome State Fault Refusal :=
  match s.pending with
  | [] => idle s
  | a :: rest => performAction a rest s

/-- `s` with the opcode-table word's frame as what the host delivers next (log entry 3). -/
def State.withFetchWord (s : State) (nbits w : Nat) : State := s.withNextFrame (tableFrame nbits w)

end Sys2Proof.Machine
end

