-- ==== Sys2Proof/Machine/Assembler.lean ====
section
/-! DEFINITION. The assembler notation and the pseudo-commands (30_encoding.md R91, R92): a line of text to the frames
it stands for. It is notation for the host's command lists; the BCE has no assembler of its own. Where R91 and R92 leave
the notation open, what is read is DESIGN CHOICE, log entry 9. -/

namespace Sys2Proof.Machine

/-- One line of the notation, after its text has been read. -/
inductive AsmLine where
  /-- A command with exactly its payload (R91). -/
  | command (i : Instr)
  /-- `.frame x0, x1, …`: the bytes as one frame, unchecked (R91). -/
  | frame (bytes : Frame)
  /-- `COMPT.RAW r`, 0 ≤ r < 2^20 (R92). -/
  | comptRaw (r : Nat)
  /-- `COMPP.RAW r`, 0 ≤ r < 2^20 (R92). -/
  | comppRaw (r : Nat)
  /-- `COMPH.RAW r`, 0 ≤ r < 2^16 (R92). -/
  | comphRaw (r : Nat)
  /-- `LOADCAL.COEF T1=v, …, H6=v`, each within its range (R92). -/
  | loadcalCoef (c : Cal)
  /-- `CYCLE t0,t1,t2, p0,p1,p2, h0,h1` (R92). -/
  | cycle (t0 t1 t2 p0 p1 p2 h0 h1 : Byte)
  deriving DecidableEq, Repr

/-- The payload that decodes to the 20-bit sample `r` and has a zero low nibble (R92). -/
def samplePayload (r : Nat) : Payload :=
  [BitVec.ofNat 8 ((r >>> 12) &&& 0xFF), BitVec.ofNat 8 ((r >>> 4) &&& 0xFF), BitVec.ofNat 8 ((r &&& 0xF) <<< 4)]

/-- The payload that decodes to the 16-bit sample `r` (R92). -/
def humidityPayload (r : Nat) : Payload := [BitVec.ofNat 8 (r >>> 8), BitVec.ofNat 8 (r &&& 0xFF)]

/-- The frames of a line: one, but three for CYCLE, in that order (R91, R92). -/
def AsmLine.frames : AsmLine → List Frame
  | .command i => [encode i]
  | .frame bytes => [bytes]
  | .comptRaw r => [encode (.compt (samplePayload r))]
  | .comppRaw r => [encode (.compp (samplePayload r))]
  | .comphRaw r => [encode (.comph (humidityPayload r))]
  | .loadcalCoef c => [encode (.loadcal (encodeCal c))]
  | .cycle t0 t1 t2 p0 p1 p2 h0 h1 =>
    [encode (.compt [t0, t1, t2]), encode (.compp [p0, p1, p2]), encode (.comph [h0, h1])]

/-! ## Reading a line's text -/

/-- Operands are separated by commas or spaces (R91). No other character separates (DESIGN CHOICE, log entry 9). -/
def isSeparator (c : Char) : Bool := c == ',' || c == ' '

/-- The line's words: the text up to `;`, which starts a comment, cut at separators (R91). DESIGN CHOICE, log entry 9: any
run of separators is one, so empty operands are skipped, at either end of the line too. -/
def asmWords (line : List Char) : List (List Char) :=
  ((line.takeWhile (· != ';')).splitBy fun a b => isSeparator a == isSeparator b).filter
    fun w => !w.all isSeparator

/-- A word with its letters in upper case: mnemonics are case-insensitive (R91). -/
def upperCase (w : List Char) : List Char := w.map Char.toUpper

/-- A hex digit's value; its letter case does not matter (DESIGN CHOICE, log entry 9). -/
def hexDigit (c : Char) : Option Nat :=
  if '0' ≤ c ∧ c ≤ '9' then some (c.toNat - 48)
  else if 'A' ≤ c.toUpper ∧ c.toUpper ≤ 'F' then some (c.toUpper.toNat - 55)
  else none

/-- A byte literal in hex, `0x7E` or `7E` (R91); one digit is read as well, and the mark is a lower-case
`0x` (DESIGN CHOICE, log entry 9). -/
def byteLiteral : List Char → Option Byte
  | ['0', 'x', a, b] => byteLiteral.digits a b
  | ['0', 'x', a] => byteLiteral.digits '0' a
  | [a, b] => byteLiteral.digits a b
  | [a] => byteLiteral.digits '0' a
  | _ => none
where
  /-- Two hex digits as a byte. -/
  digits (a b : Char) : Option Byte :=
    match hexDigit a, hexDigit b with
    | some x, some y => some (BitVec.ofNat 8 (16 * x + y))
    | _, _ => none

/-- Every word read by `p`, or nothing if one is not readable. -/
def readAll {α : Type} (p : List Char → Option α) : List (List Char) → Option (List α)
  | [] => some []
  | w :: ws =>
    match p w, readAll p ws with
    | some x, some xs => some (x :: xs)
    | _, _ => none

/-- A decimal natural number, of any number of digits (DESIGN CHOICE, log entry 9: R92 names no base). -/
def decimal (w : List Char) : Option Nat :=
  if w.isEmpty || !w.all Char.isDigit then none
  else some (w.foldl (fun n c => 10 * n + (c.toNat - 48)) 0)

/-- A decimal integer, with `-` for a negative one and no `+` (DESIGN CHOICE, log entry 9). -/
def decimalInt : List Char → Option Int
  | '-' :: w => (decimal w).map fun n => -(n : Int)
  | w => (decimal w).map fun n => (n : Int)

/-- The 18 coefficient names in the order of 10_state.md R22. -/
def coefficientNames : List (List Char) :=
  [['T', '1'], ['T', '2'], ['T', '3'], ['P', '1'], ['P', '2'], ['P', '3'], ['P', '4'], ['P', '5'], ['P', '6'],
   ['P', '7'], ['P', '8'], ['P', '9']] ++
  [['H', '1'], ['H', '2'], ['H', '3'], ['H', '4'], ['H', '5'], ['H', '6']]

/-- `NAME=value`, the name in upper case and no space around `=` (DESIGN CHOICE, log entry 9). -/
def coefficient (name word : List Char) : Option Int :=
  if word.take (name.length + 1) = name ++ ['='] then decimalInt (word.drop (name.length + 1)) else none

/-- The words `T1=v … H6=v`, one for each name, in R22's order only (DESIGN CHOICE, log entry 9). -/
def coefficients : List (List Char) → List (List Char) → Option (List Int)
  | [], [] => some []
  | n :: ns, w :: ws =>
    match coefficient n w, coefficients ns ws with
    | some v, some vs => some (v :: vs)
    | _, _ => none
  | _, _ => none

/-- All 18 coefficients, each within its range of 10_state.md R22. -/
def calOfWords (ws : List (List Char)) : Option Cal :=
  match coefficients coefficientNames ws with
  | some [t1, t2, t3, p1, p2, p3, p4, p5, p6, p7, p8, p9, h1, h2, h3, h4, h5, h6] =>
    let c : Cal := ⟨t1, t2, t3, p1, p2, p3, p4, p5, p6, p7, p8, p9, h1, h2, h3, h4, h5, h6⟩
    if c.InRange then some c else none
  | _ => none

/-- A proper command: its mnemonic takes exactly its number of bytes (R91). -/
def commandLine (mk : Payload → Instr) (ws : List (List Char)) : Option AsmLine :=
  match readAll byteLiteral ws with
  | some pl => if (mk pl).wellFormed then some (.command (mk pl)) else none
  | none => none

/-- A `.RAW` pseudo-command: one sample below the bound (R92). -/
def rawLine (mk : Nat → AsmLine) (bound : Nat) (ws : List (List Char)) : Option AsmLine :=
  match ws with
  | [w] =>
    match decimal w with
    | some r => if r < bound then some (mk r) else none
    | none => none
  | _ => none

/-- CYCLE: eight bytes (R92). -/
def cycleLine (ws : List (List Char)) : Option AsmLine :=
  match readAll byteLiteral ws with
  | some [t0, t1, t2, p0, p1, p2, h0, h1] => some (.cycle t0 t1 t2 p0 p1 p2 h0 h1)
  | _ => none

/-- One line of text with at least one word: its mnemonic first, then its operands (R91, R92). -/
def asmLine (mnemonic : List Char) (ws : List (List Char)) : Option AsmLine :=
  match upperCase mnemonic with
  | ['L', 'O', 'A', 'D', 'C', 'A', 'L'] => commandLine .loadcal ws
  | ['C', 'O', 'M', 'P', 'T'] => commandLine .compt ws
  | ['C', 'O', 'M', 'P', 'P'] => commandLine .compp ws
  | ['C', 'O', 'M', 'P', 'H'] => commandLine .comph ws
  | ['.', 'F', 'R', 'A', 'M', 'E'] => (readAll byteLiteral ws).map .frame
  | ['C', 'O', 'M', 'P', 'T', '.', 'R', 'A', 'W'] => rawLine .comptRaw (2 ^ 20) ws
  | ['C', 'O', 'M', 'P', 'P', '.', 'R', 'A', 'W'] => rawLine .comppRaw (2 ^ 20) ws
  | ['C', 'O', 'M', 'P', 'H', '.', 'R', 'A', 'W'] => rawLine .comphRaw (2 ^ 16) ws
  | ['L', 'O', 'A', 'D', 'C', 'A', 'L', '.', 'C', 'O', 'E', 'F'] => (calOfWords ws).map .loadcalCoef
  | ['C', 'Y', 'C', 'L', 'E'] => cycleLine ws
  | _ => none

/-- The frames a line of text stands for: none for a blank or comment line, and no reading at all for a line that is
not in the notation (DESIGN CHOICE, log entry 9). -/
def assembleLine (line : List Char) : Option (List Frame) :=
  match asmWords line with
  | [] => some []
  | m :: ws => (asmLine m ws).map AsmLine.frames

/-- The frames of a text, line by line (R91); one unreadable line and the text has no reading (DESIGN CHOICE, log entry 9). -/
def assemble : List (List Char) → Option (List Frame)
  | [] => some []
  | line :: lines =>
    match assembleLine line, assemble lines with
    | some fs, some gs => some (fs ++ gs)
    | _, _ => none

end Sys2Proof.Machine
end

