-- ==== Sys2Proof/Machine/HostSide.lean ====
section
/-! DEFINITION. The host's side as far as the spec states it: the sensor register space and its wire framing
(20_memory.md R54 to R60), the payloads and frames of a calibration snapshot and of a measurement cycle (R55, R198,
R223, R230), the order of configuration writes (70_reset_and_hazards.md R232, R233), and how the host reads the BCE's
words (R39, R135, R145, R159). The BCE neither produces nor checks any of it. -/

namespace Sys2Proof.Machine

/-! ## The sensor's registers and the wire (R54 to R60) -/

/-- One transport transaction of the host with the sensor. -/
inductive Transfer where
  /-- Write the data bytes to the register. -/
  | write (register : Byte) (data : List Byte)
  /-- Read `count` bytes from the register on. -/
  | read (register : Byte) (count : Nat)
  deriving DecidableEq, Repr

/-- The bytes a transaction transmits: write framing (R56); read framing with dummy bytes (R57) of value 0x00 (R59). -/
def Transfer.wire : Transfer → List Byte
  | .write register data => (register &&& 0x7F#8) :: data
  | .read register count => (register ||| 0x80#8) :: List.replicate count 0x00#8

/-- The payload of a read's received bytes: the first, an echo, is discarded (R58); nothing is appended to a short
response (R60). -/
def responsePayload (received : List Byte) : Payload := received.drop 1

/-- The `n` bytes of the sensor's registers from `base` on, in ascending address order (R54). -/
def rangePayload (sensor : Nat → Byte) (base n : Nat) : Payload :=
  (List.range n).map fun k => sensor (base + k)

/-- The three calibration reads (R54, R55), listed in R54's order; the rules do not order the reads themselves. -/
def calibrationReads : List Transfer := [.read 0x88 24, .read 0xA1 1, .read 0xE1 7]

/-- The reads of one measurement cycle, as R198 lists them (R54); the rules do not order the reads themselves, and a cycle
that leaves out COMPP or COMPH needs only two of them (DESIGN CHOICE, log entry 16). -/
def cycleReads : List Transfer := [.read 0xFA 3, .read 0xF7 3, .read 0xFD 2]

/-- The calibration snapshot: block 1, then block 2, then block 3 (R55, D7). -/
def snapshotPayload (sensor : Nat → Byte) : Payload :=
  rangePayload sensor 0x88 24 ++ rangePayload sensor 0xA1 1 ++ rangePayload sensor 0xE1 7

/-- What the host delivers to load the calibration: the whole snapshot as one LOADCAL (R55, R223 step 2). -/
def loadFrames (sensor : Nat → Byte) : List Frame := [encode (.loadcal (snapshotPayload sensor))]

/-- What the host may deliver in one measurement cycle: COMPT, then COMPP and/or COMPH, in either order, all from one
measurement (R198, R230, R231). -/
def cycleChoices (sensor : Nat → Byte) : List (List Frame) :=
  let t := encode (.compt (rangePayload sensor 0xFA 3))
  let p := encode (.compp (rangePayload sensor 0xF7 3))
  let h := encode (.comph (rangePayload sensor 0xFD 2))
  [[t, p], [t, h], [t, p, h], [t, h, p]]

/-- The full cycle COMPT, COMPP, COMPH, all from one measurement (R198, R231). DESIGN CHOICE, log entry 16: it is one of
`cycleChoices`, the one that R92's CYCLE expands to; R198 also allows COMPP alone, COMPH alone, and COMPH before COMPP. -/
def cycleFrames (sensor : Nat → Byte) : List Frame :=
  [encode (.compt (rangePayload sensor 0xFA 3)), encode (.compp (rangePayload sensor 0xF7 3)),
   encode (.comph (rangePayload sensor 0xFD 2))]

/-! ## Duties about the order of transactions -/

/-- A write that names the given register: its data bytes are not followed into later registers (DESIGN CHOICE, log
entry 14). -/
def Transfer.writesTo (register : Byte) : Transfer → Bool
  | .write r _ => r == register
  | .read _ _ => false

/-- A read, not a write. -/
def Transfer.isRead : Transfer → Bool
  | .write _ _ => false
  | .read _ _ => true

/-- The host writes humidity control (0xF2) strictly before measurement control (0xF4): every transaction sequence that
writes 0xF4 has written 0xF2 before its first write to 0xF4 (R232). Where 0xF5 falls is not said (N6). DESIGN CHOICE, log
entry 14: R232 does not say whether the duty applies anew to a later configuration, and the check judges the list up to
its first write to 0xF4 only. -/
def configurationOrdered (ts : List Transfer) : Bool :=
  let before := ts.takeWhile fun t => !t.writesTo 0xF4
  before.length == ts.length || before.any (Transfer.writesTo 0xF2)

/-- The host makes no sensor register write between the three calibration reads (R55, R233): some unbroken run of reads
holds all three of them. DESIGN CHOICE, log entry 14: R55 and D7 fix only the order in which the blocks are concatenated,
so the reads may come in any order, other reads may stand between them, and a snapshot that a write has broken may be
started again. -/
def snapshotConsistent (ts : List Transfer) : Bool :=
  ts.tails.any fun rest => calibrationReads.all fun r => (rest.takeWhile Transfer.isRead).contains r

/-! ## Reading the BCE's words -/

/-- Whether the register of this number is signed (R39; R22 for the CAL fields, of which T1, P1, H1 and H3 are
unsigned). -/
def registerSigned (number : Nat) : Bool :=
  number ∈ [0x01, 0x02, 0x03] ||
    (0x10 ≤ number && number ≤ 0x21 && !(number ∈ [0x10, 0x13, 0x1C, 0x1E] : Bool))

/-- The integer a register's word stands for. -/
def wordValue (number : Nat) (w : RegWord) : Int :=
  if registerSigned number then w.bits.toInt else w.bits.toNat

/-- The temperature in °C: `TEMP / 100`, exact (R135). -/
def celsius (temp : Int) : Rat := temp / 100

/-- The pressure in Pa: `PRESS / 256`, exact (R145). -/
def pascal (press : Int) : Rat := press / 256

/-- The pressure in hPa: `PRESS / 25600`, exact (R145). -/
def hectopascal (press : Int) : Rat := press / 25600

/-- The pressure in hPa with the source's two implied decimal digits: `⌊PRESS / 256⌋ / 100` (R145). -/
def hectopascalTwoDigits (press : Int) : Rat := floorDiv press 256 / 100

/-- The relative humidity in %RH: `HUM / 1024`, exact (R159). -/
def relativeHumidity (hum : Int) : Rat := hum / 1024

end Sys2Proof.Machine
end

