-- ==== Sys2Proof/Safety.lean ====
section
/-! DEFINITION. The terms the claims use: what a failed command leaves (60_exceptions.md R185), the check order as the
spec lists it (R182), the invariant of every reachable state (10_state.md R43), what the host can observe (R39, R40),
and clean runs (R199). -/

namespace Sys2Proof.Machine

/-! ## What stays the same -/

/-- The host's side is as before: the position, the actions still to come, the answers it has had. -/
abbrev SameHostSide (s t : State) : Prop :=
  t.position = s.position ∧ t.pending = s.pending ∧ t.answers = s.answers

/-- The temperature registers are as before. -/
abbrev SameTemperature (s t : State) : Prop := t.rawT = s.rawT ∧ t.tfine = s.tfine ∧ t.temp = s.temp

/-- The pressure registers are as before. -/
abbrev SamePressure (s t : State) : Prop := t.rawP = s.rawP ∧ t.press = s.press

/-- The humidity registers are as before. -/
abbrev SameHumidity (s t : State) : Prop := t.rawH = s.rawH ∧ t.hum = s.hum

/-- Every field of STATUS but the listed ones is as before. -/
abbrev SameFlagsBut (changed : List StatusField) (s t : State) : Prop :=
  ∀ f, f ∉ changed → t.flag f = s.flag f

/-- The command failed with this code (R185): CODE becomes the code, ERR_SEEN becomes 1, and nothing else changes. -/
abbrev FailsWith (code : Nat) (s : State) (o : Host.Outcome State Fault Refusal) : Prop :=
  ∃ t, o = .next t ∧ t.flag .code = code ∧ t.flag .errSeen = 1 ∧ SameFlagsBut [.code, .errSeen] s t ∧
    t.cal = s.cal ∧ SameTemperature s t ∧ SamePressure s t ∧ SameHumidity s t ∧ SameHostSide s t

/-! ## The check order (R182) -/

/-- `need(OP)` of R182. -/
def requiredLength (op : Nat) : Nat := if op = 1 then 32 else if op = 4 then 2 else 3

/-- The number of the first check of R182 that applies to a frame, given CAL_VALID and TV, as the code it decides. -/
def firstCheck (calValid tv : Nat) : Frame → Nat
  | [] => 3
  | op :: pl =>
    if ¬ (1 ≤ op.toNat ∧ op.toNat ≤ 4) then 1
    else if pl.length < requiredLength op.toNat then 2
    else if pl.length > requiredLength op.toNat then 3
    else if op.toNat = 1 ∧ calValid = 1 then 4
    else if op.toNat ≠ 1 ∧ calValid = 0 then 5
    else if 3 ≤ op.toNat ∧ tv = 0 then 6
    else 0

/-! ## The invariant -/

/-- What holds in every reachable state (R43), with what the registers then hold: each valid result is the rules' function
of its raw sample, CAL and TFINE, and CAL is within R22's ranges. -/
structure State.Inv (s : State) : Prop where
  calInRange : s.flag .calValid = 1 → s.cal.InRange
  tvNeedsCal : s.flag .tv = 1 → s.flag .calValid = 1
  pvNeedsTv : s.flag .pv = 1 → s.flag .tv = 1
  hvNeedsTv : s.flag .hv = 1 → s.flag .tv = 1
  temperature : s.flag .tv = 1 →
    s.tfine = BitVec.ofInt 32 (compT s.rawT.toNat s.cal).1 ∧ s.temp = BitVec.ofInt 32 (compT s.rawT.toNat s.cal).2
  pressure : s.flag .pv = 1 →
    s.press = BitVec.ofInt 128 (compP s.rawP.toNat s.cal s.tfine.toInt).1 ∧
    s.flag .pz = (compP s.rawP.toNat s.cal s.tfine.toInt).2
  humidity : s.flag .hv = 1 →
    s.hum = BitVec.ofInt 32 (compH s.rawH.toNat s.cal s.tfine.toInt).1 ∧
    s.flag .hcl = (compH s.rawH.toNat s.cal s.tfine.toInt).2
  pzCleared : s.flag .pv = 0 → s.flag .pz = 0
  hclCleared : s.flag .hv = 0 → s.flag .hcl = 0
  reservedZero : s.flag .reserved = 0
  codeBound : s.flag .code ≤ 6

/-- The machine after reset with a host that is about to do the given actions: where every run begins (R199, R220). -/
def State.resetWith (actions : List HostAction) : State := { State.reset with pending := actions }

/-! ## What the host can observe -/

/-- Everything a register read, or the host's own side, can tell of a state. -/
structure View where
  status : BitVec 16
  cal : Option Cal
  temperature : Option (BitVec 20 × BitVec 32 × BitVec 32)
  pressure : Option (BitVec 20 × BitVec 128)
  humidity : Option (BitVec 16 × BitVec 32)
  position : Nat
  pending : List HostAction
  answers : List RegWord
  deriving DecidableEq, Repr

/-- A state without what stands behind a cleared valid bit. -/
def State.view (s : State) : View where
  status := s.status
  cal := if s.flag .calValid = 1 then some s.cal else none
  temperature := if s.flag .tv = 1 then some (s.rawT, s.tfine, s.temp) else none
  pressure := if s.flag .pv = 1 then some (s.rawP, s.press) else none
  humidity := if s.flag .hv = 1 then some (s.rawH, s.hum) else none
  position := s.position
  pending := s.pending
  answers := s.answers

/-- Two outcomes the host cannot tell apart. -/
def SameOutcome : Host.Outcome State Fault Refusal → Host.Outcome State Fault Refusal → Prop
  | .next s, .next t => s.view = t.view
  | .fault a, .fault b => a = b
  | .refused a, .refused b => a = b
  | _, _ => False

/-! ## The spec's golden vectors (95_test_vectors.md) -/

/-- PAYLOAD_G: the calibration payload of R100's worked example. -/
def goldenPayload : Payload :=
  [0x70, 0x6B, 0x43, 0x67, 0x18, 0xFC, 0x7D, 0x8E, 0x43, 0xD6, 0xD0, 0x0B, 0x27, 0x0B, 0x8C, 0x00] ++
  [0xF9, 0xFF, 0x8C, 0x3C, 0xF8, 0xC6, 0x70, 0x17, 0x4B, 0x6A, 0x01, 0x00, 0x13, 0x29, 0x03, 0x1E]

/-- Calibration set G, as R100's worked example lists it. -/
def goldenCal : Cal where
  t1 := 27504
  t2 := 26435
  t3 := -1000
  p1 := 36477
  p2 := -10685
  p3 := 3024
  p4 := 2855
  p5 := 140
  p6 := -7
  p7 := 15500
  p8 := -14600
  p9 := 6000
  h1 := 75
  h2 := 362
  h3 := 0
  h4 := 313
  h5 := 50
  h6 := 30

/-- What 32 bytes of 0xFF decode to (R100's corner cases). -/
def allOnesCal : Cal := ⟨65535, -1, -1, 65535, -1, -1, -1, -1, -1, -1, -1, -1, 255, -1, 255, -1, -1, -1⟩

/-! ## Runs -/

/-- A run that has ended in `s` is clean if no command of it failed (R199). -/
abbrev State.Clean (s : State) : Prop := s.flag .errSeen = 0

/-- The host does not reset the block in what it has still to do. -/
abbrev State.NoResetPending (s : State) : Prop := HostAction.reset ∉ s.pending

end Sys2Proof.Machine
end

