-- ==== Sys2Proof/Certificates/Slice0/Obligations.lean ====
section
/-! DEFINITION. The statements for the provers: what the rules of spec/ say the machine does. -/

open Sys2Proof Sys2Proof.Machine

/-! ## Arithmetic and operands -/

/-- R7, R8, R9, R11: floor shift, exact left shift, floor division and the closed clamp, against rational floors. -/
def Obligations.ArithmeticIsExactWithFloors : Prop :=
  (∀ (x : Int) (k : Nat), asr x k = ⌊(x : ℚ) / 2 ^ k⌋) ∧ asr (-6076000) 14 = -371 ∧
  (∀ (x : Int) (k : Nat), shl x k = x * 2 ^ k) ∧
  (∀ a b : Int, b ≠ 0 → floorDiv a b = ⌊(a : ℚ) / (b : ℚ)⌋) ∧
  (∀ v lo hi : Int, (v < lo → clamp v lo hi = lo) ∧ (lo ≤ v → v > hi → clamp v lo hi = hi) ∧
    (lo ≤ v → v ≤ hi → clamp v lo hi = v))

/-- R131, R132: the raw samples from their payload bytes, 20 and 16 bits, the low nibble of `PL[2]` discarded. -/
def Obligations.RawSamplesAreBigEndian : Prop :=
  (∀ b0 b1 b2 : Byte, rawTp [b0, b1, b2] = b0.toNat * 4096 + b1.toNat * 16 + b2.toNat / 16 ∧
    rawTp [b0, b1, b2] = (65536 * b0.toNat + 256 * b1.toNat + b2.toNat) / 16 ∧ rawTp [b0, b1, b2] ≤ 1048575) ∧
  (∀ b0 b1 : Byte, rawH [b0, b1] = 256 * b0.toNat + b1.toNat ∧ rawH [b0, b1] ≤ 65535)

/-- 93_implementation_defined.md U5: every result is independent of the reserved low nibble of the third byte. -/
def Obligations.ReservedNibbleIsIgnored : Prop :=
  ∀ (b0 b1 b2 b3 : Byte) (s : State), b2 >>> 4 = b3 >>> 4 →
    exec (.compt [b0, b1, b2]) s = exec (.compt [b0, b1, b3]) s ∧
    exec (.compp [b0, b1, b2]) s = exec (.compp [b0, b1, b3]) s

/-! ## Encoding -/

/-- R93: the worked encoding, from the pseudo-command to the frame and back to the command it decodes to. -/
def Obligations.WorkedEncodingDecodes : Prop :=
  (AsmLine.comptRaw 519888).frames = [encode (.compt [0x7E, 0xED, 0x00])] ∧
  encode (.compt [0x7E, 0xED, 0x00]) = [0x02, 0x7E, 0xED, 0x00] ∧
  decode [0x02, 0x7E, 0xED, 0x00] = .ok (.compt [0x7E, 0xED, 0x00]) ∧ rawTp [0x7E, 0xED, 0x00] = 519888 ∧
  decode [0x03, 0x65, 0x5A, 0xC0] = .ok (.compp [0x65, 0x5A, 0xC0]) ∧
  decode [0x04, 0x75, 0x30] = .ok (.comph [0x75, 0x30]) ∧
  decode (0x01 :: goldenPayload) = .ok (.loadcal goldenPayload)

/-- Every command's frame decodes to it, and only its frame does. That this holds with EVERY payload, one of the wrong
length too, is the model's choice (DESIGN CHOICE, log entry 8): its decoder takes any length and the command's meaning
makes the length check, where R89 has the decoder check it. For well-formed commands it rests on R80 and R85 alone. -/
def Obligations.FramesAndCommandsCorrespond : Prop :=
  (∀ i, decode (encode i) = .ok i) ∧ (∀ f i, decode f = .ok i → encode i = f)

/-- R120, R121: the calibration decoder is a bijection between 32-byte payloads and in-range coefficients, and
`encode_cal` is its inverse. -/
def Obligations.CalibrationCodecIsBijective : Prop :=
  (∀ pl : Payload, pl.length = 32 → (decodeCal pl).InRange ∧ encodeCal (decodeCal pl) = pl) ∧
  (∀ c : Cal, c.InRange → (encodeCal c).length = 32 ∧ decodeCal (encodeCal c) = c)

/-- R102 to R113: the twelve 16-bit coefficients of block 1 from the sensor's registers, little-endian, T1 and P1
unsigned and the others two's complement. -/
def Obligations.Block1Coefficients : Prop :=
  ∀ sensor : Nat → Byte,
    let c := decodeCal (snapshotPayload sensor)
    let unsigned := fun a => (((sensor a).toNat + 256 * (sensor (a + 1)).toNat : Nat) : Int)
    let signed := fun a => if (sensor (a + 1)).toNat < 128 then unsigned a else unsigned a - 65536
    c.t1 = unsigned 0x88 ∧ c.t2 = signed 0x8A ∧ c.t3 = signed 0x8C ∧ c.p1 = unsigned 0x8E ∧
    c.p2 = signed 0x90 ∧ c.p3 = signed 0x92 ∧ c.p4 = signed 0x94 ∧ c.p5 = signed 0x96 ∧
    c.p6 = signed 0x98 ∧ c.p7 = signed 0x9A ∧ c.p8 = signed 0x9C ∧ c.p9 = signed 0x9E

/-- R114 to R119: the humidity coefficients from registers 0xA1 and 0xE1 to 0xE7; H4 and H5 share register 0xE5, H4
taking its low nibble and H5 its high one, and each has its sign in bit 7 of its other register. -/
def Obligations.Block2And3Coefficients : Prop :=
  ∀ sensor : Nat → Byte,
    let c := decodeCal (snapshotPayload sensor)
    let r := fun a => ((sensor a).toNat : Int)
    let low := (((sensor 0xE5).toNat % 16 : Nat) : Int)
    let high := (((sensor 0xE5).toNat / 16 : Nat) : Int)
    c.h1 = r 0xA1 ∧
    c.h2 = (if r 0xE2 < 128 then r 0xE1 + 256 * r 0xE2 else r 0xE1 + 256 * r 0xE2 - 65536) ∧
    c.h3 = r 0xE3 ∧
    c.h4 = (if r 0xE4 < 128 then 16 * r 0xE4 + low else 16 * r 0xE4 + low - 4096) ∧
    c.h5 = (if r 0xE6 < 128 then 16 * r 0xE6 + high else 16 * r 0xE6 + high - 4096) ∧
    c.h6 = (if r 0xE7 < 128 then r 0xE7 else r 0xE7 - 256)

/-- R123: the source's packed-field example, whose eighth byte lies outside the block and is not read. -/
def Obligations.PackedFieldExample : Prop :=
  let pl : Payload := List.replicate 25 0x00 ++ [0x00, 0x00, 0x00, 0x1A, 0x3B, 0x02, 0x00]
  (decodeCal pl).h4 = 427 ∧ (decodeCal pl).h5 = 35 ∧ decodeCal (pl ++ [0x1E]) = decodeCal pl

/-- The payload of a `.RAW` pseudo-command is the only one with a zero low nibble that decodes to its sample. -/
def Obligations.RawPseudoCommandsEncodeTheirSample : Prop :=
  (∀ r, r < 2 ^ 20 → rawTp (samplePayload r) = r ∧
    ∀ b0 b1 b2 : Byte, b2.toNat % 16 = 0 → rawTp [b0, b1, b2] = r → [b0, b1, b2] = samplePayload r) ∧
  (∀ r, r < 2 ^ 16 → ∀ b0 b1 : Byte, rawH [b0, b1] = r ↔ [b0, b1] = humidityPayload r)

/-- R56 to R60: write and read framing on the wire, the dummy bytes, and the payload of a response, however short. -/
def Obligations.WireFraming : Prop :=
  (∀ (a : Byte) (ds : List Byte), ∃ a', (Transfer.write a ds).wire = a' :: ds ∧ a'.toNat = a.toNat % 128) ∧
  (∀ (a : Byte) (n : Nat), ∃ a', (Transfer.read a n).wire = a' :: List.replicate n 0x00 ∧
    a'.toNat = 128 + a.toNat % 128) ∧
  (∀ (echo : Byte) (received : List Byte), responsePayload (echo :: received) = received)

/-! ## The formulas -/

/-- R134, R135: `comp_t` with every shift written as a rational floor, and the temperature in °C. -/
def Obligations.TemperatureFormula : Prop :=
  (∀ temp : Int, celsius temp = (temp : ℚ) / 100) ∧ ∀ (raw : Int) (c : Cal),
    let var1 := ⌊(((⌊(raw : ℚ) / 2 ^ 3⌋ - c.t1 * 2) * c.t2 : Int) : ℚ) / 2 ^ 11⌋
    let d := ⌊(raw : ℚ) / 2 ^ 4⌋ - c.t1
    let var2 := ⌊((⌊((d * d : Int) : ℚ) / 2 ^ 12⌋ * c.t3 : Int) : ℚ) / 2 ^ 14⌋
    let tfine := var1 + var2
    compT raw c = (tfine, ⌊((tfine * 5 + 128 : Int) : ℚ) / 2 ^ 8⌋)

/-- R136: the corner cases of `comp_t`, and that it reads T1, T2 and T3 only. -/
def Obligations.TemperatureCornerCases : Prop :=
  tempVar2 519888 goldenCal = -371 ∧ compT 519888 goldenCal = (128422, 2508) ∧
  compT 400000 goldenCal = (-64736, -1264) ∧
  compT 0 goldenCal = (-721301, -14088) ∧ compT 1048575 goldenCal = (960246, 18755) ∧
  (∀ raw : Int, compT raw Cal.zero = (0, 0)) ∧
  (∀ c : Cal, c.t1 = 65535 → c.t2 = -32768 → c.t3 = 32767 → compT 0 c = (4194144, 81917)) ∧
  (∀ c : Cal, c.t1 = 0 → c.t2 = -32768 → c.t3 = -32768 → compT 1048575 c = (-4194224, -81918)) ∧
  (∀ (raw : Int) (c d : Cal), c.t1 = d.t1 → c.t2 = d.t2 → c.t3 = d.t3 → compT raw c = compT raw d)

/-- R141, R144: `comp_p` with every shift and its one division written as a rational floor, and R144's witness of floor
division. -/
def Obligations.PressureFormula : Prop :=
  (pressNumerator 1048454 goldenCal 128422 < 0 ∧ compP 1048454 goldenCal 128422 = (-1692359, 0)) ∧ ∀ (raw : Int) (c : Cal) (tf : Int),
    let v1 := tf - 128000
    let v2 := v1 * v1 * c.p6 + v1 * c.p5 * 2 ^ 17 + c.p4 * 2 ^ 35
    let w1 := ⌊((v1 * v1 * c.p3 : Int) : ℚ) / 2 ^ 8⌋ + v1 * c.p2 * 2 ^ 12
    let divisor := ⌊(((2 ^ 47 + w1) * c.p1 : Int) : ℚ) / 2 ^ 33⌋
    let p := ⌊((((1048576 - raw) * 2 ^ 31 - v2) * 3125 : Int) : ℚ) / (divisor : ℚ)⌋
    let q := ⌊(p : ℚ) / 2 ^ 13⌋
    let x1 := ⌊((c.p9 * q * q : Int) : ℚ) / 2 ^ 25⌋
    let x2 := ⌊((c.p8 * p : Int) : ℚ) / 2 ^ 19⌋
    (divisor = 0 → compP raw c tf = (0, 1)) ∧
    (divisor ≠ 0 → compP raw c tf = (⌊((p + x1 + x2 : Int) : ℚ) / 2 ^ 8⌋ + c.p7 * 2 ^ 4, 0))

/-- R143: the zero-divisor guard triggers exactly when its bound says, in particular when P1 = 0, and COMPP then
succeeds with PRESS = 0 and PZ = 1. -/
def Obligations.ZeroDivisorGuard : Prop :=
  (∀ (raw : Int) (c : Cal) (tf : Int),
    ((compP raw c tf).2 = 1 ↔
      0 ≤ (2 ^ 47 + pressSlope c tf) * c.p1 ∧ (2 ^ 47 + pressSlope c tf) * c.p1 < 2 ^ 33) ∧
    (c.p1 = 0 → compP raw c tf = (0, 1))) ∧
  (∀ (pl : Payload) (s : State), pl.length = 3 → s.flag .calValid = 1 → s.flag .tv = 1 →
    pressDivisor s.cal s.tfine.toInt = 0 →
    ∃ t, exec (.compp pl) s = .next t ∧ t.press.toInt = 0 ∧ t.flag .pz = 1 ∧ t.flag .pv = 1 ∧ t.flag .code = 0)

/-- R147: the corner cases of `comp_p`, and that it reads P1 to P9 only. -/
def Obligations.PressureCornerCases : Prop :=
  (∀ (raw tf : Int) (c : Cal), c.p1 = 0 → compP raw c tf = (0, 1)) ∧
  compP 0 goldenCal 128422 = (44339071, 0) ∧ compP 1048575 goldenCal 128422 = (-1697504, 0) ∧
  compP 1048454 goldenCal 128422 = (-1692359, 0) ∧
  compP 415148 goldenCal (-4194224) = (7761060, 0) ∧ compP 415148 goldenCal 4194144 = (23670866, 0) ∧
  (∀ (raw tf : Int) (c d : Cal), c.p1 = d.p1 → c.p2 = d.p2 → c.p3 = d.p3 → c.p4 = d.p4 → c.p5 = d.p5 →
    c.p6 = d.p6 → c.p7 = d.p7 → c.p8 = d.p8 → c.p9 = d.p9 → compP raw c tf = compP raw d tf) ∧
  (∀ (pl : Payload) (s t : State), exec (.compp pl) s = .next t → t.tfine = s.tfine)

/-- R156, R159: `comp_h` with every shift written as a rational floor, and the humidity in %RH. -/
def Obligations.HumidityFormula : Prop :=
  (∀ hum : Int, relativeHumidity hum = (hum : ℚ) / 1024) ∧ ∀ (raw : Int) (c : Cal) (tf : Int),
    let v := tf - 76800
    let a := ⌊((raw * 2 ^ 14 - c.h4 * 2 ^ 20 - c.h5 * v + 16384 : Int) : ℚ) / 2 ^ 15⌋
    let m := ⌊((v * c.h6 : Int) : ℚ) / 2 ^ 10⌋ * (⌊((v * c.h3 : Int) : ℚ) / 2 ^ 11⌋ + 32768)
    let b := ⌊(((⌊(m : ℚ) / 2 ^ 10⌋ + 2097152) * c.h2 + 8192 : Int) : ℚ) / 2 ^ 14⌋
    let q := ⌊((a * b : Int) : ℚ) / 2 ^ 15⌋
    let w := a * b - ⌊((⌊((q * q : Int) : ℚ) / 2 ^ 7⌋ * c.h1 : Int) : ℚ) / 2 ^ 4⌋
    (w < 0 → compH raw c tf = (0, 1)) ∧
    (w > 419430400 → compH raw c tf = (⌊(419430400 : ℚ) / 2 ^ 12⌋, 2)) ∧
    (0 ≤ w → w ≤ 419430400 → compH raw c tf = (⌊(w : ℚ) / 2 ^ 12⌋, 0))

/-- R158, R160: HUM lies in 0 to 102400 for every input, and HCL says on which side, if any, the intermediate was
clamped; the ends of the range are not clamped. -/
def Obligations.HumidityIsClamped : Prop :=
  ∀ (raw : Int) (c : Cal) (tf : Int),
    0 ≤ (compH raw c tf).1 ∧ (compH raw c tf).1 ≤ 102400 ∧
    ((compH raw c tf).2 = 1 ↔ humUnclamped raw c tf < 0) ∧
    ((compH raw c tf).2 = 2 ↔ humUnclamped raw c tf > 419430400) ∧
    ((compH raw c tf).2 = 0 ↔ 0 ≤ humUnclamped raw c tf ∧ humUnclamped raw c tf ≤ 419430400) ∧
    ((compH raw c tf).2 = 1 → (compH raw c tf).1 = 0) ∧
    ((compH raw c tf).2 = 2 → (compH raw c tf).1 = 102400) ∧
    ((compH raw c tf).2 = 0 → (compH raw c tf).1 = ⌊(humUnclamped raw c tf : ℚ) / 2 ^ 12⌋)

/-- R161: the corner cases of `comp_h`. -/
def Obligations.HumidityCornerCases : Prop :=
  compH 20188 goldenCal 128422 = (0, 1) ∧ compH 20189 goldenCal 128422 = (0, 0) ∧
  0 ≤ humUnclamped 20189 goldenCal 128422 ∧ humUnclamped 20189 goldenCal 128422 ≤ 4095 ∧
  compH 38146 goldenCal 128422 = (102398, 0) ∧ compH 38147 goldenCal 128422 = (102400, 2) ∧
  compH 0 goldenCal 128422 = (0, 1) ∧ compH 65535 goldenCal 128422 = (102400, 2) ∧
  (∀ (raw tf : Int) (c : Cal), c.h1 = 0 → c.h2 = 0 → c.h3 = 0 → c.h4 = 0 → c.h5 = 0 → c.h6 = 0 →
    humB c tf = 0 ∧ compH raw c tf = (0, 0)) ∧
  (compT 524288 goldenCal).1 = 135479 ∧ compH 30000 goldenCal 135479 = (56364, 0)

/-- R170: every intermediate of the three formulas lies in its row's range, over the whole input domain. -/
def Obligations.IntermediateBounds : Prop :=
  ∀ c : Cal, c.InRange →
    (∀ raw : Int, 0 ≤ raw → raw ≤ 1048575 →
      let d := asr raw 4 - c.t1
      (-4294934528 ≤ (asr raw 3 - shl c.t1 1) * c.t2 ∧ (asr raw 3 - shl c.t1 1) * c.t2 ≤ 4294901760) ∧
      (0 ≤ d * d ∧ d * d ≤ 4294836225) ∧
      (-34358689792 ≤ asr (d * d) 12 * c.t3 ∧ asr (d * d) 12 * c.t3 ≤ 34357641248) ∧
      (-4194224 ≤ (compT raw c).1 ∧ (compT raw c).1 ≤ 4194144) ∧
      (-81918 ≤ (compT raw c).2 ∧ (compT raw c).2 ≤ 81917)) ∧
    (∀ tf : Int, -4194224 ≤ tf → tf ≤ 4194144 →
      (∀ raw : Int, 0 ≤ raw → raw ≤ 1048575 →
        let divisor := pressDivisor c tf
        let p := floorDiv (pressNumerator raw c tf) divisor
        let q := asr p 13
        let sum := p + asr (c.p9 * q * q) 25 + asr (c.p8 * p) 19
        (-631848478303059968 ≤ pressOffset c tf ∧ pressOffset c tf ≤ 631830328845559552) ∧
        (-185504111033853050880 ≤ (shl 1 47 + pressSlope c tf) * c.p1 ∧
          (shl 1 47 + pressSlope c tf) * c.p1 ≤ 203946951431229134745) ∧
        (-21595520787 ≤ divisor ∧ divisor ≤ 23742549986) ∧
        (-1974469770931487200000 ≤ pressNumerator raw c tf ∧
          pressNumerator raw c tf ≤ 1981563369114828800000) ∧
        (divisor ≠ 0 →
          (-1981563369114828800001 ≤ p ∧ p ≤ 1981563369114828800001) ∧
          (-192 * 10 ^ 37 ≤ c.p9 * q * q ∧ c.p9 * q * q ≤ 192 * 10 ^ 37) ∧
          (-572 * 10 ^ 29 ≤ sum ∧ sum ≤ 572 * 10 ^ 29)) ∧
        (-223200992534338753828346826883 ≤ (compP raw c tf).1 ∧
          (compP raw c tf).1 ≤ 223194180980611760588240676698)) ∧
      (∀ raw : Int, 0 ≤ raw → raw ≤ 65535 →
        let v := humA raw c tf * humB c tf
        let term := asr (asr (asr v 15 * asr v 15) 7 * c.h1) 4
        (-332443 ≤ humA raw c tf ∧ humA raw c tf ≤ 365112) ∧
        (-572925568 ≤ humB c tf ∧ humB c tf ≤ 572908084) ∧
        (-209181999983616 ≤ v ∧ v ≤ 209175616365408) ∧
        (0 ≤ term ∧ term ≤ 5074099510883718126) ∧
        (-5074308692883701742 ≤ humUnclamped raw c tf ∧ humUnclamped raw c tf ≤ 209175616365408) ∧
        (0 ≤ (compH raw c tf).1 ∧ (compH raw c tf).1 ≤ 102400)))

/-- No result register ever truncates: in every state that meets the invariant, TFINE, TEMP, PRESS and HUM, while valid,
are exactly the rules' integers. -/
def Obligations.RegistersHoldExactResults : Prop :=
  ∀ s : State, s.Inv →
    (s.flag .tv = 1 → s.tfine.toInt = (compT s.rawT.toNat s.cal).1 ∧ s.temp.toInt = (compT s.rawT.toNat s.cal).2) ∧
    (s.flag .pv = 1 → s.press.toInt = (compP s.rawP.toNat s.cal s.tfine.toInt).1) ∧
    (s.flag .hv = 1 → (s.hum.toNat : Int) = (compH s.rawH.toNat s.cal s.tfine.toInt).1)

/-- R145: the exact pressure in Pa and hPa, and the two-digit one, which is the exact one rounded down by less than a
hundredth of a hPa. -/
def Obligations.TwoDigitPressureRoundsDown : Prop :=
  ∀ press : Int, pascal press = (press : ℚ) / 256 ∧ hectopascal press = (press : ℚ) / 25600 ∧
    hectopascalTwoDigits press = (⌊(press : ℚ) / 256⌋ : ℚ) / 100 ∧
    hectopascalTwoDigits press ≤ hectopascal press ∧
    hectopascal press < hectopascalTwoDigits press + 1 / 100 ∧ hectopascal press = pascal press / 100

/-! ## The commands -/

/-- R100: LOADCAL, its checks in order, its success with what it leaves unchanged, and its corner cases. -/
def Obligations.LoadcalLoadsOnce : Prop :=
  (∀ (pl : Payload) (s : State),
    (pl.length < 32 → FailsWith 2 s (exec (.loadcal pl) s)) ∧
    (pl.length > 32 → FailsWith 3 s (exec (.loadcal pl) s)) ∧
    (pl.length = 32 → s.flag .calValid = 1 → FailsWith 4 s (exec (.loadcal pl) s)) ∧
    (pl.length = 32 → s.flag .calValid = 0 →
      ∃ t, exec (.loadcal pl) s = .next t ∧ t.cal = decodeCal pl ∧ t.flag .calValid = 1 ∧ t.flag .code = 0 ∧
        SameFlagsBut [.calValid, .code] s t ∧ SameTemperature s t ∧ SamePressure s t ∧ SameHumidity s t ∧
        SameHostSide s t)) ∧
  decodeCal (List.replicate 32 0x00) = Cal.zero ∧ decodeCal (List.replicate 32 0xFF) = allOnesCal ∧
  decodeCal goldenPayload = goldenCal

/-- R130: COMPT, its checks in order, its success with what it leaves unchanged, and its worked example. -/
def Obligations.ComptComputesTemperature : Prop :=
  (∀ (pl : Payload) (s : State),
    (pl.length < 3 → FailsWith 2 s (exec (.compt pl) s)) ∧
    (pl.length > 3 → FailsWith 3 s (exec (.compt pl) s)) ∧
    (pl.length = 3 → s.flag .calValid = 0 → FailsWith 5 s (exec (.compt pl) s)) ∧
    (pl.length = 3 → s.flag .calValid = 1 →
      ∃ t, exec (.compt pl) s = .next t ∧ t.rawT.toNat = rawTp pl ∧
        t.tfine = BitVec.ofInt 32 (compT (rawTp pl) s.cal).1 ∧ t.temp = BitVec.ofInt 32 (compT (rawTp pl) s.cal).2 ∧
        t.flag .tv = 1 ∧ t.flag .pv = 0 ∧ t.flag .hv = 0 ∧ t.flag .pz = 0 ∧ t.flag .hcl = 0 ∧ t.flag .code = 0 ∧
        t.register 0x03 = none ∧ t.register 0x04 = none ∧ t.register 0x06 = none ∧ t.register 0x07 = none ∧
        SameFlagsBut [.tv, .pv, .hv, .pz, .hcl, .code] s t ∧ t.cal = s.cal ∧ SamePressure s t ∧ SameHumidity s t ∧
        SameHostSide s t)) ∧
  (∀ s : State, s.flag .calValid = 1 → s.cal.t1 = 27504 → s.cal.t2 = 26435 → s.cal.t3 = -1000 →
    ∃ t, exec (.compt [0x7E, 0xED, 0x00]) s = .next t ∧ t.rawT.toNat = 519888 ∧ t.tfine.toInt = 128422 ∧
      t.temp.toInt = 2508)

/-- R140: COMPP, its checks in order, its success with what it leaves unchanged, and its worked example. -/
def Obligations.ComppComputesPressure : Prop :=
  (∀ (pl : Payload) (s : State),
    (pl.length < 3 → FailsWith 2 s (exec (.compp pl) s)) ∧
    (pl.length > 3 → FailsWith 3 s (exec (.compp pl) s)) ∧
    (pl.length = 3 → s.flag .calValid = 0 → FailsWith 5 s (exec (.compp pl) s)) ∧
    (pl.length = 3 → s.flag .calValid = 1 → s.flag .tv = 0 → FailsWith 6 s (exec (.compp pl) s)) ∧
    (pl.length = 3 → s.flag .calValid = 1 → s.flag .tv = 1 →
      ∃ t, exec (.compp pl) s = .next t ∧ t.rawP.toNat = rawTp pl ∧
        t.press = BitVec.ofInt 128 (compP (rawTp pl) s.cal s.tfine.toInt).1 ∧
        t.flag .pz = (compP (rawTp pl) s.cal s.tfine.toInt).2 ∧ t.flag .pv = 1 ∧ t.flag .code = 0 ∧
        SameFlagsBut [.pv, .pz, .code] s t ∧ t.cal = s.cal ∧ SameTemperature s t ∧ SameHumidity s t ∧
        SameHostSide s t)) ∧
  (∀ s : State, s.flag .calValid = 1 → s.flag .tv = 1 → s.cal = goldenCal → s.tfine.toInt = 128422 →
    ∃ t, exec (.compp [0x65, 0x5A, 0xC0]) s = .next t ∧ t.rawP.toNat = 415148 ∧ t.press.toInt = 25767233 ∧
      t.flag .pz = 0 ∧ pascal t.press.toInt = 10065325390625 / 100000000 ∧
      hectopascal t.press.toInt = 10065325390625 / 10000000000)

/-- R155: COMPH, its checks in order, its success with what it leaves unchanged, and its worked example. -/
def Obligations.ComphComputesHumidity : Prop :=
  (∀ (pl : Payload) (s : State),
    (pl.length < 2 → FailsWith 2 s (exec (.comph pl) s)) ∧
    (pl.length > 2 → FailsWith 3 s (exec (.comph pl) s)) ∧
    (pl.length = 2 → s.flag .calValid = 0 → FailsWith 5 s (exec (.comph pl) s)) ∧
    (pl.length = 2 → s.flag .calValid = 1 → s.flag .tv = 0 → FailsWith 6 s (exec (.comph pl) s)) ∧
    (pl.length = 2 → s.flag .calValid = 1 → s.flag .tv = 1 →
      ∃ t, exec (.comph pl) s = .next t ∧ t.rawH.toNat = rawH pl ∧
        t.hum = BitVec.ofInt 32 (compH (rawH pl) s.cal s.tfine.toInt).1 ∧
        t.flag .hcl = (compH (rawH pl) s.cal s.tfine.toInt).2 ∧ t.flag .hv = 1 ∧ t.flag .code = 0 ∧
        SameFlagsBut [.hv, .hcl, .code] s t ∧ t.cal = s.cal ∧ SameTemperature s t ∧ SamePressure s t ∧
        SameHostSide s t)) ∧
  (∀ s : State, s.flag .calValid = 1 → s.flag .tv = 1 → s.cal.h1 = 75 → s.cal.h2 = 362 → s.cal.h3 = 0 →
    s.cal.h4 = 313 → s.cal.h5 = 50 → s.cal.h6 = 30 → s.tfine.toInt = 128422 →
    ∃ t, exec (.comph [0x75, 0x30]) s = .next t ∧ t.rawH.toNat = 30000 ∧ t.hum.toNat = 56317 ∧ t.flag .hcl = 0 ∧
      relativeHumidity t.hum.toNat = 549970703125 / 10000000000)

/-- R36, R37, R188: PZ and HCL report the formula edge cases, which are not errors: the command completes with code 0 and
leaves ERR_SEEN alone. A successful COMPT clears both, with PV and HV. -/
def Obligations.EdgeCasesAreFlagsNotErrors : Prop :=
  ∀ s : State, s.flag .calValid = 1 →
    (∀ pl : Payload, pl.length = 3 → s.flag .tv = 1 →
      ∃ t, exec (.compp pl) s = .next t ∧ t.flag .code = 0 ∧ t.flag .errSeen = s.flag .errSeen ∧
        (pressDivisor s.cal s.tfine.toInt = 0 → t.press = 0 ∧ t.flag .pz = 1) ∧
        (pressDivisor s.cal s.tfine.toInt ≠ 0 → t.flag .pz = 0)) ∧
    (∀ pl : Payload, pl.length = 2 → s.flag .tv = 1 →
      let v := humUnclamped (rawH pl) s.cal s.tfine.toInt
      ∃ t, exec (.comph pl) s = .next t ∧ t.flag .code = 0 ∧ t.flag .errSeen = s.flag .errSeen ∧
        (v < 0 → t.hum = 0 ∧ t.flag .hcl = 1) ∧ (v > 419430400 → t.hum = 102400 ∧ t.flag .hcl = 2) ∧
        (0 ≤ v → v ≤ 419430400 → t.flag .hcl = 0)) ∧
    (∀ pl : Payload, pl.length = 3 →
      ∃ t, exec (.compt pl) s = .next t ∧ t.flag .pv = 0 ∧ t.flag .pz = 0 ∧ t.flag .hv = 0 ∧ t.flag .hcl = 0)

/-- R172: the results are functions of the payload, CAL and TFINE alone, whatever else differs. -/
def Obligations.ResultsDependOnOperandsOnly : Prop :=
  ∀ (pl : Payload) (s t s' t' : State), s.cal = t.cal →
    (exec (.compt pl) s = .next s' → exec (.compt pl) t = .next t' → s'.flag .code = 0 → t'.flag .code = 0 →
      s'.rawT = t'.rawT ∧ s'.tfine = t'.tfine ∧ s'.temp = t'.temp) ∧
    (s.tfine = t.tfine → exec (.compp pl) s = .next s' → exec (.compp pl) t = .next t' →
      s'.flag .code = 0 → t'.flag .code = 0 →
      s'.rawP = t'.rawP ∧ s'.press = t'.press ∧ s'.flag .pz = t'.flag .pz) ∧
    (s.tfine = t.tfine → exec (.comph pl) s = .next s' → exec (.comph pl) t = .next t' →
      s'.flag .code = 0 → t'.flag .code = 0 →
      s'.rawH = t'.rawH ∧ s'.hum = t'.hum ∧ s'.flag .hcl = t'.flag .hcl)

/-- Within a cycle the order of COMPP and COMPH does not matter: both orders lead to the same state. -/
def Obligations.PressureAndHumidityCommute : Prop :=
  ∀ (s : State) (p h : Payload), p.length = 3 → h.length = 2 → s.flag .calValid = 1 → s.flag .tv = 1 →
    ∃ a b t, exec (.compp p) s = .next a ∧ exec (.comph h) a = .next t ∧
      exec (.comph h) s = .next b ∧ exec (.compp p) b = .next t ∧ t.flag .pv = 1 ∧ t.flag .hv = 1

/-! ## Whole-machine rules -/

/-- R33: where each field of STATUS lies, and which commands write it. -/
def Obligations.StatusLayoutAndWriters : Prop :=
  (∀ s : State, s.flag .calValid = s.status.toNat % 2 ∧ s.flag .tv = s.status.toNat / 2 % 2 ∧
    s.flag .pv = s.status.toNat / 4 % 2 ∧ s.flag .hv = s.status.toNat / 8 % 2 ∧
    s.flag .errSeen = s.status.toNat / 16 % 2 ∧ s.flag .pz = s.status.toNat / 32 % 2 ∧
    s.flag .hcl = s.status.toNat / 64 % 4 ∧ s.flag .code = s.status.toNat / 256 % 16 ∧
    s.flag .reserved = s.status.toNat / 4096) ∧
  (∀ (i : Instr) (s t : State), exec i s = .next t →
    (t.flag .calValid ≠ s.flag .calValid → t.flag .calValid = 1 ∧ ∃ pl, i = .loadcal pl) ∧
    (t.flag .tv ≠ s.flag .tv → t.flag .tv = 1 ∧ ∃ pl, i = .compt pl) ∧
    (t.flag .pv ≠ s.flag .pv →
      (t.flag .pv = 1 ∧ ∃ pl, i = .compp pl) ∨ (t.flag .pv = 0 ∧ ∃ pl, i = .compt pl)) ∧
    (t.flag .hv ≠ s.flag .hv →
      (t.flag .hv = 1 ∧ ∃ pl, i = .comph pl) ∨ (t.flag .hv = 0 ∧ ∃ pl, i = .compt pl)) ∧
    (t.flag .errSeen ≠ s.flag .errSeen → t.flag .errSeen = 1 ∧ t.flag .code ≠ 0) ∧
    (t.flag .pz ≠ s.flag .pz → (∃ pl, i = .compp pl) ∨ (t.flag .pz = 0 ∧ ∃ pl, i = .compt pl)) ∧
    (t.flag .hcl ≠ s.flag .hcl → (∃ pl, i = .comph pl) ∨ (t.flag .hcl = 0 ∧ ∃ pl, i = .compt pl)) ∧
    t.flag .code = firstCheck (s.flag .calValid) (s.flag .tv) (encode i) ∧
    t.flag .reserved = s.flag .reserved) ∧
  State.reset.status = 0

/-- R39: the register numbers, their widths and when each holds a value. -/
def Obligations.RegisterNumbers : Prop :=
  ∀ s : State,
    s.register 0x00 = some ⟨16, s.status⟩ ∧
    (s.flag .tv = 1 → s.register 0x01 = some ⟨32, s.tfine⟩ ∧ s.register 0x02 = some ⟨32, s.temp⟩ ∧
      s.register 0x05 = some ⟨20, s.rawT⟩) ∧
    (s.flag .tv = 0 → s.register 0x01 = none ∧ s.register 0x02 = none ∧ s.register 0x05 = none) ∧
    (s.flag .pv = 1 → s.register 0x03 = some ⟨128, s.press⟩ ∧ s.register 0x06 = some ⟨20, s.rawP⟩) ∧
    (s.flag .pv = 0 → s.register 0x03 = none ∧ s.register 0x06 = none) ∧
    (s.flag .hv = 1 → s.register 0x04 = some ⟨32, s.hum⟩ ∧ s.register 0x07 = some ⟨16, s.rawH⟩) ∧
    (s.flag .hv = 0 → s.register 0x04 = none ∧ s.register 0x07 = none) ∧
    (s.flag .calValid = 1 →
      (List.range 18).map (fun i => s.register (0x10 + i)) =
        [some ⟨16, BitVec.ofInt 16 s.cal.t1⟩, some ⟨16, BitVec.ofInt 16 s.cal.t2⟩,
         some ⟨16, BitVec.ofInt 16 s.cal.t3⟩, some ⟨16, BitVec.ofInt 16 s.cal.p1⟩,
         some ⟨16, BitVec.ofInt 16 s.cal.p2⟩, some ⟨16, BitVec.ofInt 16 s.cal.p3⟩,
         some ⟨16, BitVec.ofInt 16 s.cal.p4⟩, some ⟨16, BitVec.ofInt 16 s.cal.p5⟩,
         some ⟨16, BitVec.ofInt 16 s.cal.p6⟩, some ⟨16, BitVec.ofInt 16 s.cal.p7⟩,
         some ⟨16, BitVec.ofInt 16 s.cal.p8⟩, some ⟨16, BitVec.ofInt 16 s.cal.p9⟩,
         some ⟨8, BitVec.ofInt 8 s.cal.h1⟩, some ⟨16, BitVec.ofInt 16 s.cal.h2⟩,
         some ⟨8, BitVec.ofInt 8 s.cal.h3⟩, some ⟨12, BitVec.ofInt 12 s.cal.h4⟩,
         some ⟨12, BitVec.ofInt 12 s.cal.h5⟩, some ⟨8, BitVec.ofInt 8 s.cal.h6⟩]) ∧
    (s.flag .calValid = 0 → ∀ n, 0x10 ≤ n → s.register n = none) ∧
    (∀ n, (0x08 ≤ n ∧ n ≤ 0x0F) ∨ 0x22 ≤ n → s.register n = none)

/-- R40: a host read has no side effect on the BCE and returns the register's value; where there is none, the model
faults. -/
def Obligations.HostReadsHaveNoSideEffect : Prop :=
  ∀ (s : State) (n : Nat) (rest : List HostAction), s.pending = .read n :: rest →
    (∀ w, s.register n = some w → step s = .next { s with pending := rest, answers := s.answers ++ [w] }) ∧
    (s.register n = none → step s = .fault (.noValue n))

/-- R44, R221: the state after reset, and what a reset at any time gives: STATUS 0, and no data register with a value. -/
def Obligations.ResetLeavesNoValue : Prop :=
  (State.reset.status = 0 ∧ ∀ n, n ≠ 0 → State.reset.register n = none) ∧
  (∀ (s : State) (rest : List HostAction), s.pending = .reset :: rest →
    ∃ t, step s = .next t ∧ t.status = 0x0000 ∧ (∀ f, t.flag f = 0) ∧ (∀ n, n ≠ 0 → t.register n = none))

/-- A reset leaves what is the host's: its position, the rest of its list and its copies. DEDUCED, log entry 11: R45 says
that the host's command list and its copies are not reset; that the position stays is the model's inference from it. -/
def Obligations.ResetLeavesTheHostSide : Prop :=
  ∀ (s : State) (rest : List HostAction), s.pending = .reset :: rest →
    ∃ t, step s = .next t ∧ t.position = s.position ∧ t.pending = rest ∧ t.answers = s.answers

/-- When the delivered bytes decode to a command, a step is that command's meaning at the state with the action taken
and the position advanced by one. -/
def Obligations.StepRunsTheDecodedCommand : Prop :=
  ∀ (s : State) (f : Frame) (rest : List HostAction) (i : Instr),
    s.pending = .deliver f :: rest → decode f = .ok i →
    step s = exec i { s with pending := rest, position := s.position + 1 }

/-- R86, R88: an illegal opcode fails with E_OPCODE whatever its payload, and the empty frame with E_FRAME. -/
def Obligations.NonCommandsFail : Prop :=
  ∀ (s : State) (rest : List HostAction),
    (∀ (op : Byte) (pl : Payload), s.pending = .deliver (op :: pl) :: rest → (op.toNat = 0 ∨ 5 ≤ op.toNat) →
      FailsWith 1 { s with pending := rest, position := s.position + 1 } (step s)) ∧
    (s.pending = .deliver [] :: rest → FailsWith 3 { s with pending := rest, position := s.position + 1 } (step s))

/-- R87: for a legal opcode a payload shorter than required fails with E_SHORT and a longer one with E_FRAME; only the
exact length is a valid command. -/
def Obligations.WrongLengthFails : Prop :=
  ∀ (s : State) (rest : List HostAction) (op : Byte) (pl : Payload),
    s.pending = .deliver (op :: pl) :: rest → 1 ≤ op.toNat → op.toNat ≤ 4 →
    (pl.length < requiredLength op.toNat →
      FailsWith 2 { s with pending := rest, position := s.position + 1 } (step s)) ∧
    (pl.length > requiredLength op.toNat →
      FailsWith 3 { s with pending := rest, position := s.position + 1 } (step s)) ∧
    (pl.length = requiredLength op.toNat ↔ ∃ i, decode (op :: pl) = .ok i ∧ i.wellFormed = true)

/-- R34, R180, R182, R183: every frame completes, and the first check that applies, in R182's order, decides CODE;
ERR_SEEN is then set on a failure and kept on a success. -/
def Obligations.FirstCheckDecidesTheCode : Prop :=
  ∀ (s : State) (f : Frame) (rest : List HostAction), s.pending = .deliver f :: rest →
    ∃ t, step s = .next t ∧ t.flag .code = firstCheck (s.flag .calValid) (s.flag .tv) f ∧ t.flag .code ≤ 6 ∧
      (t.flag .code ≠ 0 → t.flag .errSeen = 1) ∧ (t.flag .code = 0 → t.flag .errSeen = s.flag .errSeen)

/-- R185: a failed command writes CODE and ERR_SEEN and nothing else. -/
def Obligations.FailureChangesNothingElse : Prop :=
  ∀ (s : State) (f : Frame) (rest : List HostAction), s.pending = .deliver f :: rest →
    firstCheck (s.flag .calValid) (s.flag .tv) f ≠ 0 →
    FailsWith (firstCheck (s.flag .calValid) (s.flag .tv) f)
      { s with pending := rest, position := s.position + 1 } (step s)

/-- After a failed command every register but STATUS reads as before: the old results, with their old validity. -/
def Obligations.FailureKeepsOldResultsReadable : Prop :=
  ∀ (s : State) (f : Frame) (rest : List HostAction), s.pending = .deliver f :: rest →
    firstCheck (s.flag .calValid) (s.flag .tv) f ≠ 0 →
    ∃ t, step s = .next t ∧ ∀ n, n ≠ 0 → t.register n = s.register n

/-- R35: ERR_SEEN is 1 after a frame exactly when it was 1 before or the frame failed, and only a reset clears it. -/
def Obligations.ErrSeenIsSticky : Prop :=
  (∀ (s : State) (f : Frame) (rest : List HostAction), s.pending = .deliver f :: rest →
    ∃ t, step s = .next t ∧ (t.flag .errSeen = 1 ↔ s.flag .errSeen = 1 ∨ t.flag .code ≠ 0)) ∧
  (∀ s t : State, step s = .next t → s.flag .errSeen = 1 → t.flag .errSeen = 0 →
    ∃ rest, s.pending = .reset :: rest)

/-- R41: the position advances by one per delivered command, whatever its outcome; a read or an idle step does not move it.
A reset is `ResetLeavesTheHostSide`'s, since what it does to the position is deduced. -/
def Obligations.PositionCountsCommands : Prop :=
  ∀ s t : State, step s = .next t →
    (∀ f rest, s.pending = .deliver f :: rest → t.position = s.position + 1 ∧ t.pending = rest) ∧
    ((∀ f rest, s.pending ≠ .deliver f :: rest) → (∀ rest, s.pending ≠ .reset :: rest) → t.position = s.position)

/-- R23: CAL is written only by a successful LOADCAL, all 18 fields at once, and only while no set is loaded; likewise
each result register has its one command. -/
def Obligations.EachRegisterHasOneWriter : Prop :=
  ∀ (i : Instr) (s t : State), exec i s = .next t →
    (t.cal ≠ s.cal → ∃ pl, i = .loadcal pl ∧ pl.length = 32 ∧ s.flag .calValid = 0 ∧ t.cal = decodeCal pl ∧
      t.flag .calValid = 1 ∧ t.flag .code = 0) ∧
    (¬ SameTemperature s t → ∃ pl, i = .compt pl ∧ t.flag .tv = 1 ∧ t.flag .code = 0) ∧
    (¬ SamePressure s t → ∃ pl, i = .compp pl ∧ t.flag .pv = 1 ∧ t.flag .code = 0) ∧
    (¬ SameHumidity s t → ∃ pl, i = .comph pl ∧ t.flag .hv = 1 ∧ t.flag .code = 0) ∧
    SameHostSide s t

/-- R222: without a reset, no run of any length clears CAL, CAL_VALID, TV or ERR_SEEN, and a loaded calibration set stays
as it is. -/
def Obligations.OnlyResetUnloadsCalibration : Prop :=
  ∀ (k : Nat) (s t : State), Host.Core.run Sys2Proof.core k s = .next t → s.NoResetPending →
    (s.flag .calValid = 1 → t.cal = s.cal ∧ t.flag .calValid = 1) ∧
    (s.flag .tv = 1 → t.flag .tv = 1) ∧ (s.flag .errSeen = 1 → t.flag .errSeen = 1)

/-- Every run of frames from reset completes, and it is clean exactly when every frame of it succeeded. -/
def Obligations.RunsCompleteAndCleanMeansNoFailure : Prop :=
  ∀ frames : List Frame,
    let start := State.resetWith (frames.map HostAction.deliver)
    ∃ t, Host.Core.run Sys2Proof.core frames.length start = .next t ∧ t.pending = [] ∧
      t.position = frames.length ∧
      (t.Clean ↔ ∀ k, k < frames.length →
        ∃ u, Host.Core.run Sys2Proof.core (k + 1) start = .next u ∧ u.flag .code = 0)

/-- The invariant holds after reset, whatever the host is about to do. -/
def Obligations.InvHoldsAfterReset : Prop :=
  ∀ actions : List HostAction, (State.resetWith actions).Inv

/-- Every step keeps the invariant. -/
def Obligations.EveryStepKeepsInv : Prop :=
  ∀ s t : State, s.Inv → step s = .next t → t.Inv

/-- R43: what holds in every state that a run from reset reaches, whatever the host does. -/
def Obligations.ReachableStatesAreCoherent : Prop :=
  ∀ (actions : List HostAction) (k : Nat) (s : State),
    Host.Core.run Sys2Proof.core k (State.resetWith actions) = .next s →
    (s.flag .tv = 1 → s.flag .calValid = 1) ∧
    (s.flag .pv = 1 → s.flag .tv = 1) ∧ (s.flag .hv = 1 → s.flag .tv = 1) ∧
    (s.flag .pv = 1 → s.press.toInt = (compP s.rawP.toNat s.cal s.tfine.toInt).1) ∧
    (s.flag .hv = 1 → (s.hum.toNat : Int) = (compH s.rawH.toNat s.cal s.tfine.toInt).1) ∧
    (s.flag .pv = 0 → s.flag .pz = 0) ∧ (s.flag .hv = 0 → s.flag .hcl = 0) ∧
    s.flag .reserved = 0 ∧ s.flag .code ≤ 6

/-- What stands behind a cleared valid bit never matters: two states the host cannot tell apart step to outcomes it
cannot tell apart. So the bits the model chose for the registers at reset (log entry 2) are unobservable. -/
def Obligations.HiddenValuesNeverMatter : Prop :=
  ∀ s t : State, s.view = t.view → SameOutcome (step s) (step t)
end

