-- ==== Sys2Proof/Laws/Decode.lean ====
section
/-! SUPPORT. Everything the decoder can answer, said once (30_encoding.md R85, R86, R88). -/

namespace Sys2Proof

/-- The decoder on a frame with an opcode byte: one of the four commands, or an illegal opcode. -/
theorem decode_cons (op : Byte) (pl : Payload) :
    (op = 0x01#8 ∧ decode (op :: pl) = .ok (.loadcal pl)) ∨
    (op = 0x02#8 ∧ decode (op :: pl) = .ok (.compt pl)) ∨
    (op = 0x03#8 ∧ decode (op :: pl) = .ok (.compp pl)) ∨
    (op = 0x04#8 ∧ decode (op :: pl) = .ok (.comph pl)) ∨
    ((op.toNat = 0 ∨ 5 ≤ op.toNat) ∧ decode (op :: pl) = .error (.illegalOpcode op)) := by
  have key : ∀ k : Nat, k < 256 → op.toNat = k → op = BitVec.ofNat 8 k := fun k hk h => by
    rw [← h, BitVec.ofNat_toNat, BitVec.setWidth_eq]
  by_cases h1 : op.toNat = 1
  · exact .inl ⟨key 1 (by decide) h1, by simp [decode, h1]⟩
  by_cases h2 : op.toNat = 2
  · exact .inr (.inl ⟨key 2 (by decide) h2, by simp [decode, h2]⟩)
  by_cases h3 : op.toNat = 3
  · exact .inr (.inr (.inl ⟨key 3 (by decide) h3, by simp [decode, h3]⟩))
  by_cases h4 : op.toNat = 4
  · exact .inr (.inr (.inr (.inl ⟨key 4 (by decide) h4, by simp [decode, h4]⟩)))
  · refine .inr (.inr (.inr (.inr ⟨by omega, ?_⟩)))
    simp only [decode]

end Sys2Proof
end

