-- ==== Sys2Proof/Laws/Operands.lean ====
section
/-! SUPPORT. The notation of the rules in Lean's own terms: floor shifts and division as `/`, bit fields, extension, and
the ranges of assembled operands. -/

namespace Sys2Proof.Machine

/-- The floor shift is Lean's integer division by the power of two. -/
theorem asr_eq_div (x : Int) (k : Nat) : asr x k = x / 2 ^ k :=
  Int.fdiv_eq_ediv_of_nonneg x (by positivity)

/-- The floor shift of 00_scope.md R7 as its two defining inequalities. -/
theorem asr_iff (x y : Int) (k : Nat) : asr x k = y ↔ y * 2 ^ k ≤ x ∧ x < (y + 1) * 2 ^ k := by
  have hp : (0 : Int) < 2 ^ k := by positivity
  rw [asr_eq_div]
  constructor
  · rintro rfl
    exact ⟨Int.ediv_mul_le x hp.ne', Int.lt_ediv_add_one_mul_self x hp⟩
  · rintro ⟨h1, h2⟩
    exact le_antisymm (Int.lt_add_one_iff.mp (Int.ediv_lt_of_lt_mul hp h2)) ((Int.le_ediv_iff_mul_le hp).mpr h1)

/-- The floor shift is monotone. -/
theorem asr_mono {x y : Int} (k : Nat) (h : x ≤ y) : asr x k ≤ asr y k := by
  rw [asr_eq_div, asr_eq_div]
  exact Int.ediv_le_ediv (by positivity) h

/-- A shifted interval. -/
theorem asr_bounds {x lo hi : Int} (k : Nat) (h : lo ≤ x ∧ x ≤ hi) : asr lo k ≤ asr x k ∧ asr x k ≤ asr hi k :=
  ⟨asr_mono k h.1, asr_mono k h.2⟩

/-- A product lies between any bounds of the four corner products of its factors' intervals. -/
theorem mul_bounds {x y a b c d lo hi : Int} (hx : a ≤ x ∧ x ≤ b) (hy : c ≤ y ∧ y ≤ d)
    (hlo : lo ≤ a * c ∧ lo ≤ a * d ∧ lo ≤ b * c ∧ lo ≤ b * d)
    (hhi : a * c ≤ hi ∧ a * d ≤ hi ∧ b * c ≤ hi ∧ b * d ≤ hi) : lo ≤ x * y ∧ x * y ≤ hi := by
  rcases le_total 0 y with h | h
  · have h1 := mul_le_mul_of_nonneg_right hx.1 h
    have h2 := mul_le_mul_of_nonneg_right hx.2 h
    rcases le_total 0 a with ha | ha <;> rcases le_total 0 b with hb | hb <;> constructor <;> nlinarith
  · have h1 := mul_le_mul_of_nonpos_right hx.1 h
    have h2 := mul_le_mul_of_nonpos_right hx.2 h
    rcases le_total 0 a with ha | ha <;> rcases le_total 0 b with hb | hb <;> constructor <;> nlinarith

/-- Floor division by a non-zero integer does not leave the symmetric interval of its numerator. -/
theorem floorDiv_bounds {x d m : Int} (hd : d ≠ 0) (h : -m ≤ x ∧ x ≤ m) : -m ≤ floorDiv x d ∧ floorDiv x d ≤ m := by
  have hm : 0 ≤ m := by omega
  have key : ∀ (u e : Int), 0 < e → -m ≤ u → u ≤ m → -m ≤ u / e ∧ u / e ≤ m := fun u e he h1 h2 => by
    constructor
    · rw [Int.le_ediv_iff_mul_le he]
      nlinarith
    · refine Int.lt_add_one_iff.mp (Int.ediv_lt_of_lt_mul he ?_)
      nlinarith
  unfold floorDiv
  rcases lt_or_gt_of_ne hd with hneg | hpos
  · rw [← Int.neg_fdiv_neg, Int.fdiv_eq_ediv_of_nonneg _ (by omega)]
    exact key _ _ (by omega) (by omega) (by omega)
  · rw [Int.fdiv_eq_ediv_of_nonneg _ hpos.le]
    exact key _ _ hpos h.1 h.2

/-- Clamping keeps a value within the range. -/
theorem clamp_bounds {lo hi : Int} (v : Int) (h : lo ≤ hi) : lo ≤ clamp v lo hi ∧ clamp v lo hi ≤ hi := by
  unfold clamp
  split_ifs <;> omega

theorem byteAt_lt (pl : Payload) (i : Nat) : byteAt pl i < 256 := BitVec.isLt _

/-- The temperature and pressure sample is 20 bits (41_compensation.md R131). -/
theorem rawTp_lt (pl : Payload) : rawTp pl < 2 ^ 20 := by
  have h0 := byteAt_lt pl 0
  have h1 := byteAt_lt pl 1
  have h2 := byteAt_lt pl 2
  unfold rawTp be24
  omega

/-- The humidity sample is 16 bits (41_compensation.md R132). -/
theorem rawH_lt (pl : Payload) : rawH pl < 2 ^ 16 := by
  have h0 := byteAt_lt pl 0
  have h1 := byteAt_lt pl 1
  unfold rawH be16
  omega

/-- Sign extension of an N-bit pattern, as the usual case split. -/
theorem sext_eq {n v : Nat} (hn : 0 < n) (hv : v < 2 ^ n) :
    sext n v = if v < 2 ^ (n - 1) then (v : Int) else (v : Int) - 2 ^ n := by
  obtain ⟨m, rfl⟩ : ∃ m, n = m + 1 := ⟨n - 1, by omega⟩
  simp only [Nat.add_sub_cancel] at *
  have hb : bits v m 0 = v := by simp [bits, Nat.mod_eq_of_lt hv]
  unfold sext
  simp only [Nat.add_sub_cancel, hb]
  by_cases h : v < 2 ^ m
  · simp [bits, h, Nat.div_eq_of_lt h]
  · have hd : v / 2 ^ m = 1 := by
      rw [pow_succ] at hv
      exact Nat.div_eq_of_lt_le (by omega) (by omega)
    simp [bits, h, hd]

/-- Sign extension lands in the signed range of its width. -/
theorem sext_bounds {n : Nat} (v : Nat) (hn : 0 < n) (hv : v < 2 ^ n) :
    -2 ^ (n - 1) ≤ sext n v ∧ sext n v < 2 ^ (n - 1) := by
  obtain ⟨m, rfl⟩ : ∃ m, n = m + 1 := ⟨n - 1, by omega⟩
  have h2 : ((2 ^ m : Nat) : Int) = 2 ^ m := by push_cast; rfl
  rw [sext_eq hn hv]
  simp only [Nat.add_sub_cancel, pow_succ] at *
  split_ifs <;> omega

/-- Unsigned extension of a pattern that fits is its value. -/
theorem zext_eq {n v : Nat} (hn : 0 < n) (hv : v < 2 ^ n) : zext n v = v := by
  obtain ⟨m, rfl⟩ : ∃ m, n = m + 1 := ⟨n - 1, by omega⟩
  simp [zext, bits, Nat.mod_eq_of_lt hv]

end Sys2Proof.Machine
end

