-- ==== Sys2Proof/Laws/Flags.lean ====
section
/-! SUPPORT. The status register's fields do not overlap: a field reads back what was written to it, and every other
field keeps its bits. -/

namespace Sys2Proof.Machine

theorem StatusField.fits (f : StatusField) : f.lo + f.width ≤ 16 := by cases f <;> decide

theorem StatusField.disjoint {f g : StatusField} (h : f ≠ g) :
    f.lo + f.width ≤ g.lo ∨ g.lo + g.width ≤ f.lo := by
  cases f <;> cases g <;> first | exact absurd rfl h | decide

/-- Bit `i` of STATUS after a write: the written value inside the field, the old bit outside. -/
theorem getLsbD_writeField (st : BitVec 16) (f : StatusField) (v i : Nat) :
    (writeField st f v).getLsbD i =
      if f.lo ≤ i ∧ i < f.lo + f.width then v.testBit (i - f.lo) else st.getLsbD i := by
  have hf := f.fits
  unfold writeField fieldMask
  by_cases hi : i < 16
  · by_cases hlo : f.lo ≤ i
    · by_cases hup : i < f.lo + f.width
      · have h1 : i - f.lo < f.width := by omega
        simp [hi, hlo, hup, h1, Nat.not_lt.mpr hlo]
        rw [← BitVec.getLsbD_eq_getElem, BitVec.getLsbD_ofNat]
        simp [h1]
      · have h1 : ¬ i - f.lo < f.width := by omega
        simp [hi, hlo, hup, h1, Nat.not_lt.mpr hlo, BitVec.getLsbD_ofNat]
    · have : i < f.lo := by omega
      simp [hi, hlo, this]
  · have h1 : ¬ (f.lo ≤ i ∧ i < f.lo + f.width) := by omega
    rw [if_neg h1, BitVec.getLsbD_of_ge _ _ (by omega), BitVec.getLsbD_of_ge _ _ (by omega)]

/-- A field reads back the number written to it. -/
theorem readField_writeField_self (st : BitVec 16) (f : StatusField) {v : Nat} (h : v < 2 ^ f.width) :
    readField (writeField st f v) f = v := by
  have hx : (writeField st f v).extractLsb' f.lo f.width = BitVec.ofNat f.width v := by
    apply BitVec.eq_of_getLsbD_eq
    intro i hi
    rw [BitVec.getLsbD_extractLsb', getLsbD_writeField, BitVec.getLsbD_ofNat]
    simp [hi]
  rw [readField, hx, BitVec.toNat_ofNat, Nat.mod_eq_of_lt h]

/-- A write leaves every other field as it was. -/
theorem readField_writeField_ne (st : BitVec 16) {f g : StatusField} (v : Nat) (h : g ≠ f) :
    readField (writeField st f v) g = readField st g := by
  have hx : (writeField st f v).extractLsb' g.lo g.width = st.extractLsb' g.lo g.width := by
    apply BitVec.eq_of_getLsbD_eq
    intro i hi
    rw [BitVec.getLsbD_extractLsb', BitVec.getLsbD_extractLsb', getLsbD_writeField]
    have := StatusField.disjoint h
    rw [if_neg (by omega)]
  rw [readField, hx, readField]

/-- A field is a number of its width. -/
theorem readField_lt (st : BitVec 16) (f : StatusField) : readField st f < 2 ^ f.width := BitVec.isLt _

/-- STATUS is its fields: two words with equal fields are equal. -/
theorem status_ext {a b : BitVec 16} (h : ∀ f, readField a f = readField b f) : a = b := by
  have hx (f : StatusField) : a.extractLsb' f.lo f.width = b.extractLsb' f.lo f.width :=
    BitVec.eq_of_toNat_eq (h f)
  have hbit (f : StatusField) (j : Nat) (hj : j < f.width) : a.getLsbD (f.lo + j) = b.getLsbD (f.lo + j) := by
    have := congrArg (fun x => x.getLsbD j) (hx f)
    simpa [BitVec.getLsbD_extractLsb', hj] using this
  apply BitVec.eq_of_getLsbD_eq
  intro i hi
  have hcase : ∃ f : StatusField, f.lo ≤ i ∧ i < f.lo + f.width := by
    interval_cases i
    · exact ⟨.calValid, by decide⟩
    · exact ⟨.tv, by decide⟩
    · exact ⟨.pv, by decide⟩
    · exact ⟨.hv, by decide⟩
    · exact ⟨.errSeen, by decide⟩
    · exact ⟨.pz, by decide⟩
    · exact ⟨.hcl, by decide⟩
    · exact ⟨.hcl, by decide⟩
    · exact ⟨.code, by decide⟩
    · exact ⟨.code, by decide⟩
    · exact ⟨.code, by decide⟩
    · exact ⟨.code, by decide⟩
    · exact ⟨.reserved, by decide⟩
    · exact ⟨.reserved, by decide⟩
    · exact ⟨.reserved, by decide⟩
    · exact ⟨.reserved, by decide⟩
  obtain ⟨f, h1, h2⟩ := hcase
  have := hbit f (i - f.lo) (by omega)
  rwa [Nat.add_sub_cancel' h1] at this

namespace State

@[simp] theorem flag_setFlag_ne (s : State) {f g : StatusField} (v : Nat) (h : g ≠ f) :
    (s.setFlag f v).flag g = s.flag g := readField_writeField_ne s.status v h

theorem flag_setFlag_self (s : State) (f : StatusField) {v : Nat} (h : v < 2 ^ f.width) :
    (s.setFlag f v).flag f = v := readField_writeField_self s.status f h

theorem flag_lt (s : State) (f : StatusField) : s.flag f < 2 ^ f.width := readField_lt s.status f

/-- A one-bit field is 0 or 1. -/
theorem flag_bit (s : State) {f : StatusField} (h : f.width = 1) : s.flag f = 0 ∨ s.flag f = 1 := by
  have := s.flag_lt f
  rw [h] at this
  omega

end State

end Sys2Proof.Machine
end

