-- ==== Sys2Proof/Laws/State.lean ====
section
/-! SUPPORT. One lemma per field per state update, so that no later proof unfolds a record update. -/

namespace Sys2Proof.Machine.State

/-! ## setFlag -/

@[simp] theorem setFlag_cal (s : State) (f : StatusField) (v : Nat) : (s.setFlag f v).cal = s.cal := rfl
@[simp] theorem setFlag_rawT (s : State) (f : StatusField) (v : Nat) : (s.setFlag f v).rawT = s.rawT := rfl
@[simp] theorem setFlag_rawP (s : State) (f : StatusField) (v : Nat) : (s.setFlag f v).rawP = s.rawP := rfl
@[simp] theorem setFlag_rawH (s : State) (f : StatusField) (v : Nat) : (s.setFlag f v).rawH = s.rawH := rfl
@[simp] theorem setFlag_tfine (s : State) (f : StatusField) (v : Nat) : (s.setFlag f v).tfine = s.tfine := rfl
@[simp] theorem setFlag_temp (s : State) (f : StatusField) (v : Nat) : (s.setFlag f v).temp = s.temp := rfl
@[simp] theorem setFlag_press (s : State) (f : StatusField) (v : Nat) : (s.setFlag f v).press = s.press := rfl
@[simp] theorem setFlag_hum (s : State) (f : StatusField) (v : Nat) : (s.setFlag f v).hum = s.hum := rfl
@[simp] theorem setFlag_status (s : State) (f : StatusField) (v : Nat) : (s.setFlag f v).status = writeField s.status f v := rfl
@[simp] theorem setFlag_position (s : State) (f : StatusField) (v : Nat) : (s.setFlag f v).position = s.position := rfl
@[simp] theorem setFlag_pending (s : State) (f : StatusField) (v : Nat) : (s.setFlag f v).pending = s.pending := rfl
@[simp] theorem setFlag_answers (s : State) (f : StatusField) (v : Nat) : (s.setFlag f v).answers = s.answers := rfl

/-! ## storeCal -/

@[simp] theorem storeCal_cal (s : State) (c : Cal) : (s.storeCal c).cal = c := rfl
@[simp] theorem storeCal_rawT (s : State) (c : Cal) : (s.storeCal c).rawT = s.rawT := rfl
@[simp] theorem storeCal_rawP (s : State) (c : Cal) : (s.storeCal c).rawP = s.rawP := rfl
@[simp] theorem storeCal_rawH (s : State) (c : Cal) : (s.storeCal c).rawH = s.rawH := rfl
@[simp] theorem storeCal_tfine (s : State) (c : Cal) : (s.storeCal c).tfine = s.tfine := rfl
@[simp] theorem storeCal_temp (s : State) (c : Cal) : (s.storeCal c).temp = s.temp := rfl
@[simp] theorem storeCal_press (s : State) (c : Cal) : (s.storeCal c).press = s.press := rfl
@[simp] theorem storeCal_hum (s : State) (c : Cal) : (s.storeCal c).hum = s.hum := rfl
@[simp] theorem storeCal_status (s : State) (c : Cal) : (s.storeCal c).status = s.status := rfl
@[simp] theorem storeCal_position (s : State) (c : Cal) : (s.storeCal c).position = s.position := rfl
@[simp] theorem storeCal_pending (s : State) (c : Cal) : (s.storeCal c).pending = s.pending := rfl
@[simp] theorem storeCal_answers (s : State) (c : Cal) : (s.storeCal c).answers = s.answers := rfl
@[simp] theorem storeCal_flag (s : State) (c : Cal) (g : StatusField) : (s.storeCal c).flag g = s.flag g := rfl

/-! ## storeTemperature -/

@[simp] theorem storeTemperature_cal (s : State) (r : Nat) (tf t : Int) : (s.storeTemperature r tf t).cal = s.cal := rfl
@[simp] theorem storeTemperature_rawT (s : State) (r : Nat) (tf t : Int) : (s.storeTemperature r tf t).rawT = BitVec.ofNat 20 r := rfl
@[simp] theorem storeTemperature_rawP (s : State) (r : Nat) (tf t : Int) : (s.storeTemperature r tf t).rawP = s.rawP := rfl
@[simp] theorem storeTemperature_rawH (s : State) (r : Nat) (tf t : Int) : (s.storeTemperature r tf t).rawH = s.rawH := rfl
@[simp] theorem storeTemperature_tfine (s : State) (r : Nat) (tf t : Int) : (s.storeTemperature r tf t).tfine = BitVec.ofInt 32 tf := rfl
@[simp] theorem storeTemperature_temp (s : State) (r : Nat) (tf t : Int) : (s.storeTemperature r tf t).temp = BitVec.ofInt 32 t := rfl
@[simp] theorem storeTemperature_press (s : State) (r : Nat) (tf t : Int) : (s.storeTemperature r tf t).press = s.press := rfl
@[simp] theorem storeTemperature_hum (s : State) (r : Nat) (tf t : Int) : (s.storeTemperature r tf t).hum = s.hum := rfl
@[simp] theorem storeTemperature_status (s : State) (r : Nat) (tf t : Int) : (s.storeTemperature r tf t).status = s.status := rfl
@[simp] theorem storeTemperature_position (s : State) (r : Nat) (tf t : Int) : (s.storeTemperature r tf t).position = s.position := rfl
@[simp] theorem storeTemperature_pending (s : State) (r : Nat) (tf t : Int) : (s.storeTemperature r tf t).pending = s.pending := rfl
@[simp] theorem storeTemperature_answers (s : State) (r : Nat) (tf t : Int) : (s.storeTemperature r tf t).answers = s.answers := rfl
@[simp] theorem storeTemperature_flag (s : State) (r : Nat) (tf t : Int) (g : StatusField) : (s.storeTemperature r tf t).flag g = s.flag g := rfl

/-! ## storePressure -/

@[simp] theorem storePressure_cal (s : State) (r : Nat) (p : Int) : (s.storePressure r p).cal = s.cal := rfl
@[simp] theorem storePressure_rawT (s : State) (r : Nat) (p : Int) : (s.storePressure r p).rawT = s.rawT := rfl
@[simp] theorem storePressure_rawP (s : State) (r : Nat) (p : Int) : (s.storePressure r p).rawP = BitVec.ofNat 20 r := rfl
@[simp] theorem storePressure_rawH (s : State) (r : Nat) (p : Int) : (s.storePressure r p).rawH = s.rawH := rfl
@[simp] theorem storePressure_tfine (s : State) (r : Nat) (p : Int) : (s.storePressure r p).tfine = s.tfine := rfl
@[simp] theorem storePressure_temp (s : State) (r : Nat) (p : Int) : (s.storePressure r p).temp = s.temp := rfl
@[simp] theorem storePressure_press (s : State) (r : Nat) (p : Int) : (s.storePressure r p).press = BitVec.ofInt 128 p := rfl
@[simp] theorem storePressure_hum (s : State) (r : Nat) (p : Int) : (s.storePressure r p).hum = s.hum := rfl
@[simp] theorem storePressure_status (s : State) (r : Nat) (p : Int) : (s.storePressure r p).status = s.status := rfl
@[simp] theorem storePressure_position (s : State) (r : Nat) (p : Int) : (s.storePressure r p).position = s.position := rfl
@[simp] theorem storePressure_pending (s : State) (r : Nat) (p : Int) : (s.storePressure r p).pending = s.pending := rfl
@[simp] theorem storePressure_answers (s : State) (r : Nat) (p : Int) : (s.storePressure r p).answers = s.answers := rfl
@[simp] theorem storePressure_flag (s : State) (r : Nat) (p : Int) (g : StatusField) : (s.storePressure r p).flag g = s.flag g := rfl

/-! ## storeHumidity -/

@[simp] theorem storeHumidity_cal (s : State) (r : Nat) (h : Int) : (s.storeHumidity r h).cal = s.cal := rfl
@[simp] theorem storeHumidity_rawT (s : State) (r : Nat) (h : Int) : (s.storeHumidity r h).rawT = s.rawT := rfl
@[simp] theorem storeHumidity_rawP (s : State) (r : Nat) (h : Int) : (s.storeHumidity r h).rawP = s.rawP := rfl
@[simp] theorem storeHumidity_rawH (s : State) (r : Nat) (h : Int) : (s.storeHumidity r h).rawH = BitVec.ofNat 16 r := rfl
@[simp] theorem storeHumidity_tfine (s : State) (r : Nat) (h : Int) : (s.storeHumidity r h).tfine = s.tfine := rfl
@[simp] theorem storeHumidity_temp (s : State) (r : Nat) (h : Int) : (s.storeHumidity r h).temp = s.temp := rfl
@[simp] theorem storeHumidity_press (s : State) (r : Nat) (h : Int) : (s.storeHumidity r h).press = s.press := rfl
@[simp] theorem storeHumidity_hum (s : State) (r : Nat) (h : Int) : (s.storeHumidity r h).hum = BitVec.ofInt 32 h := rfl
@[simp] theorem storeHumidity_status (s : State) (r : Nat) (h : Int) : (s.storeHumidity r h).status = s.status := rfl
@[simp] theorem storeHumidity_position (s : State) (r : Nat) (h : Int) : (s.storeHumidity r h).position = s.position := rfl
@[simp] theorem storeHumidity_pending (s : State) (r : Nat) (h : Int) : (s.storeHumidity r h).pending = s.pending := rfl
@[simp] theorem storeHumidity_answers (s : State) (r : Nat) (h : Int) : (s.storeHumidity r h).answers = s.answers := rfl
@[simp] theorem storeHumidity_flag (s : State) (r : Nat) (h : Int) (g : StatusField) : (s.storeHumidity r h).flag g = s.flag g := rfl

/-! ## takeAction -/

@[simp] theorem takeAction_cal (s : State) (rest : List HostAction) : (s.takeAction rest).cal = s.cal := rfl
@[simp] theorem takeAction_rawT (s : State) (rest : List HostAction) : (s.takeAction rest).rawT = s.rawT := rfl
@[simp] theorem takeAction_rawP (s : State) (rest : List HostAction) : (s.takeAction rest).rawP = s.rawP := rfl
@[simp] theorem takeAction_rawH (s : State) (rest : List HostAction) : (s.takeAction rest).rawH = s.rawH := rfl
@[simp] theorem takeAction_tfine (s : State) (rest : List HostAction) : (s.takeAction rest).tfine = s.tfine := rfl
@[simp] theorem takeAction_temp (s : State) (rest : List HostAction) : (s.takeAction rest).temp = s.temp := rfl
@[simp] theorem takeAction_press (s : State) (rest : List HostAction) : (s.takeAction rest).press = s.press := rfl
@[simp] theorem takeAction_hum (s : State) (rest : List HostAction) : (s.takeAction rest).hum = s.hum := rfl
@[simp] theorem takeAction_status (s : State) (rest : List HostAction) : (s.takeAction rest).status = s.status := rfl
@[simp] theorem takeAction_position (s : State) (rest : List HostAction) : (s.takeAction rest).position = s.position := rfl
@[simp] theorem takeAction_pending (s : State) (rest : List HostAction) : (s.takeAction rest).pending = rest := rfl
@[simp] theorem takeAction_answers (s : State) (rest : List HostAction) : (s.takeAction rest).answers = s.answers := rfl
@[simp] theorem takeAction_flag (s : State) (rest : List HostAction) (g : StatusField) : (s.takeAction rest).flag g = s.flag g := rfl

/-! ## giveAnswer -/

@[simp] theorem giveAnswer_cal (s : State) (w : RegWord) : (s.giveAnswer w).cal = s.cal := rfl
@[simp] theorem giveAnswer_rawT (s : State) (w : RegWord) : (s.giveAnswer w).rawT = s.rawT := rfl
@[simp] theorem giveAnswer_rawP (s : State) (w : RegWord) : (s.giveAnswer w).rawP = s.rawP := rfl
@[simp] theorem giveAnswer_rawH (s : State) (w : RegWord) : (s.giveAnswer w).rawH = s.rawH := rfl
@[simp] theorem giveAnswer_tfine (s : State) (w : RegWord) : (s.giveAnswer w).tfine = s.tfine := rfl
@[simp] theorem giveAnswer_temp (s : State) (w : RegWord) : (s.giveAnswer w).temp = s.temp := rfl
@[simp] theorem giveAnswer_press (s : State) (w : RegWord) : (s.giveAnswer w).press = s.press := rfl
@[simp] theorem giveAnswer_hum (s : State) (w : RegWord) : (s.giveAnswer w).hum = s.hum := rfl
@[simp] theorem giveAnswer_status (s : State) (w : RegWord) : (s.giveAnswer w).status = s.status := rfl
@[simp] theorem giveAnswer_position (s : State) (w : RegWord) : (s.giveAnswer w).position = s.position := rfl
@[simp] theorem giveAnswer_pending (s : State) (w : RegWord) : (s.giveAnswer w).pending = s.pending := rfl
@[simp] theorem giveAnswer_answers (s : State) (w : RegWord) : (s.giveAnswer w).answers = s.answers ++ [w] := rfl
@[simp] theorem giveAnswer_flag (s : State) (w : RegWord) (g : StatusField) : (s.giveAnswer w).flag g = s.flag g := rfl

/-! ## advance -/

@[simp] theorem advance_cal (s : State) : (s.advance).cal = s.cal := rfl
@[simp] theorem advance_rawT (s : State) : (s.advance).rawT = s.rawT := rfl
@[simp] theorem advance_rawP (s : State) : (s.advance).rawP = s.rawP := rfl
@[simp] theorem advance_rawH (s : State) : (s.advance).rawH = s.rawH := rfl
@[simp] theorem advance_tfine (s : State) : (s.advance).tfine = s.tfine := rfl
@[simp] theorem advance_temp (s : State) : (s.advance).temp = s.temp := rfl
@[simp] theorem advance_press (s : State) : (s.advance).press = s.press := rfl
@[simp] theorem advance_hum (s : State) : (s.advance).hum = s.hum := rfl
@[simp] theorem advance_status (s : State) : (s.advance).status = s.status := rfl
@[simp] theorem advance_position (s : State) : (s.advance).position = s.position + 1 := rfl
@[simp] theorem advance_pending (s : State) : (s.advance).pending = s.pending := rfl
@[simp] theorem advance_answers (s : State) : (s.advance).answers = s.answers := rfl
@[simp] theorem advance_flag (s : State) (g : StatusField) : (s.advance).flag g = s.flag g := rfl

/-! ## powerOnReset -/

@[simp] theorem powerOnReset_cal (s : State) : (s.powerOnReset).cal = State.reset.cal := rfl
@[simp] theorem powerOnReset_rawT (s : State) : (s.powerOnReset).rawT = State.reset.rawT := rfl
@[simp] theorem powerOnReset_rawP (s : State) : (s.powerOnReset).rawP = State.reset.rawP := rfl
@[simp] theorem powerOnReset_rawH (s : State) : (s.powerOnReset).rawH = State.reset.rawH := rfl
@[simp] theorem powerOnReset_tfine (s : State) : (s.powerOnReset).tfine = State.reset.tfine := rfl
@[simp] theorem powerOnReset_temp (s : State) : (s.powerOnReset).temp = State.reset.temp := rfl
@[simp] theorem powerOnReset_press (s : State) : (s.powerOnReset).press = State.reset.press := rfl
@[simp] theorem powerOnReset_hum (s : State) : (s.powerOnReset).hum = State.reset.hum := rfl
@[simp] theorem powerOnReset_status (s : State) : (s.powerOnReset).status = State.reset.status := rfl
@[simp] theorem powerOnReset_position (s : State) : (s.powerOnReset).position = s.position := rfl
@[simp] theorem powerOnReset_pending (s : State) : (s.powerOnReset).pending = s.pending := rfl
@[simp] theorem powerOnReset_answers (s : State) : (s.powerOnReset).answers = s.answers := rfl

/-! ## complete -/

@[simp] theorem complete_cal (s : State) : (s.complete).cal = s.cal := rfl
@[simp] theorem complete_rawT (s : State) : (s.complete).rawT = s.rawT := rfl
@[simp] theorem complete_rawP (s : State) : (s.complete).rawP = s.rawP := rfl
@[simp] theorem complete_rawH (s : State) : (s.complete).rawH = s.rawH := rfl
@[simp] theorem complete_tfine (s : State) : (s.complete).tfine = s.tfine := rfl
@[simp] theorem complete_temp (s : State) : (s.complete).temp = s.temp := rfl
@[simp] theorem complete_press (s : State) : (s.complete).press = s.press := rfl
@[simp] theorem complete_hum (s : State) : (s.complete).hum = s.hum := rfl
@[simp] theorem complete_status (s : State) : (s.complete).status = writeField s.status .code 0 := rfl
@[simp] theorem complete_position (s : State) : (s.complete).position = s.position := rfl
@[simp] theorem complete_pending (s : State) : (s.complete).pending = s.pending := rfl
@[simp] theorem complete_answers (s : State) : (s.complete).answers = s.answers := rfl

/-! ## fail -/

@[simp] theorem fail_cal (s : State) (e : ResultCode) : (s.fail e).cal = s.cal := rfl
@[simp] theorem fail_rawT (s : State) (e : ResultCode) : (s.fail e).rawT = s.rawT := rfl
@[simp] theorem fail_rawP (s : State) (e : ResultCode) : (s.fail e).rawP = s.rawP := rfl
@[simp] theorem fail_rawH (s : State) (e : ResultCode) : (s.fail e).rawH = s.rawH := rfl
@[simp] theorem fail_tfine (s : State) (e : ResultCode) : (s.fail e).tfine = s.tfine := rfl
@[simp] theorem fail_temp (s : State) (e : ResultCode) : (s.fail e).temp = s.temp := rfl
@[simp] theorem fail_press (s : State) (e : ResultCode) : (s.fail e).press = s.press := rfl
@[simp] theorem fail_hum (s : State) (e : ResultCode) : (s.fail e).hum = s.hum := rfl
@[simp] theorem fail_status (s : State) (e : ResultCode) : (s.fail e).status = writeField (writeField s.status .code e.code) .errSeen 1 := rfl
@[simp] theorem fail_position (s : State) (e : ResultCode) : (s.fail e).position = s.position := rfl
@[simp] theorem fail_pending (s : State) (e : ResultCode) : (s.fail e).pending = s.pending := rfl
@[simp] theorem fail_answers (s : State) (e : ResultCode) : (s.fail e).answers = s.answers := rfl

/-! ## beginCycle -/

@[simp] theorem beginCycle_cal (s : State) : (s.beginCycle).cal = s.cal := rfl
@[simp] theorem beginCycle_rawT (s : State) : (s.beginCycle).rawT = s.rawT := rfl
@[simp] theorem beginCycle_rawP (s : State) : (s.beginCycle).rawP = s.rawP := rfl
@[simp] theorem beginCycle_rawH (s : State) : (s.beginCycle).rawH = s.rawH := rfl
@[simp] theorem beginCycle_tfine (s : State) : (s.beginCycle).tfine = s.tfine := rfl
@[simp] theorem beginCycle_temp (s : State) : (s.beginCycle).temp = s.temp := rfl
@[simp] theorem beginCycle_press (s : State) : (s.beginCycle).press = s.press := rfl
@[simp] theorem beginCycle_hum (s : State) : (s.beginCycle).hum = s.hum := rfl
@[simp] theorem beginCycle_status (s : State) : (s.beginCycle).status = writeField (writeField (writeField (writeField s.status .pv 0) .hv 0) .pz 0) .hcl 0 := rfl
@[simp] theorem beginCycle_position (s : State) : (s.beginCycle).position = s.position := rfl
@[simp] theorem beginCycle_pending (s : State) : (s.beginCycle).pending = s.pending := rfl
@[simp] theorem beginCycle_answers (s : State) : (s.beginCycle).answers = s.answers := rfl

/-! ## The flags after the updates of several fields -/

@[simp] theorem setFlag_flag_calValid (s : State) : (s.setFlag .calValid 1).flag .calValid = 1 :=
  flag_setFlag_self s .calValid (by decide)

@[simp] theorem setFlag_flag_tv (s : State) : (s.setFlag .tv 1).flag .tv = 1 :=
  flag_setFlag_self s .tv (by decide)

@[simp] theorem setFlag_flag_pv (s : State) : (s.setFlag .pv 1).flag .pv = 1 :=
  flag_setFlag_self s .pv (by decide)

@[simp] theorem setFlag_flag_hv (s : State) : (s.setFlag .hv 1).flag .hv = 1 :=
  flag_setFlag_self s .hv (by decide)

@[simp] theorem complete_flag_code (s : State) : s.complete.flag .code = 0 :=
  flag_setFlag_self s .code (by decide)

@[simp] theorem complete_flag_ne (s : State) {g : StatusField} (h : g ≠ .code) : s.complete.flag g = s.flag g :=
  flag_setFlag_ne s 0 h

theorem code_lt (e : ResultCode) : e.code < 2 ^ StatusField.width .code := by cases e <;> decide

@[simp] theorem fail_flag_code (s : State) (e : ResultCode) : (s.fail e).flag .code = e.code :=
  (flag_setFlag_ne _ 1 (by decide)).trans (flag_setFlag_self s .code (code_lt e))

@[simp] theorem fail_flag_errSeen (s : State) (e : ResultCode) : (s.fail e).flag .errSeen = 1 :=
  flag_setFlag_self _ .errSeen (by decide)

@[simp] theorem fail_flag_ne (s : State) (e : ResultCode) {g : StatusField} (h1 : g ≠ .code) (h2 : g ≠ .errSeen) :
    (s.fail e).flag g = s.flag g :=
  (flag_setFlag_ne _ 1 h2).trans (flag_setFlag_ne s e.code h1)

@[simp] theorem beginCycle_flag_cleared (s : State) {g : StatusField} (h : g ∈ [StatusField.pv, .hv, .pz, .hcl]) :
    s.beginCycle.flag g = 0 := by
  have h0 (t : State) (f : StatusField) : (t.setFlag f 0).flag f = 0 :=
    flag_setFlag_self t f (Nat.two_pow_pos f.width)
  have hn (t : State) {f k : StatusField} (hk : k ≠ f) : (t.setFlag f 0).flag k = t.flag k := flag_setFlag_ne t 0 hk
  unfold beginCycle
  cases g <;> first | exact absurd h (by decide) | simp [h0, hn]

@[simp] theorem beginCycle_flag_kept (s : State) {g : StatusField} (h : g ∉ [StatusField.pv, .hv, .pz, .hcl]) :
    s.beginCycle.flag g = s.flag g := by
  simp only [List.mem_cons, List.not_mem_nil, or_false, not_or] at h
  simp [beginCycle, h]

@[simp] theorem reset_flag (g : StatusField) : State.reset.flag g = 0 := by cases g <;> decide

@[simp] theorem powerOnReset_flag (s : State) (g : StatusField) : s.powerOnReset.flag g = 0 := reset_flag g

end Sys2Proof.Machine.State
end

