-- ==== Sys2Proof/Laws/Ops.lean ====
section
/-! SUPPORT. One lemma per shared operation that says everything it can do: how a command ends, its checks, the read
port. -/

namespace Sys2Proof.Machine

/-- A command ends in a next state, always (60_exceptions.md R180): it fails with the first applicable check's code, or
its own writes stand and it completes. -/
theorem endCommand_cases {error : Option ResultCode} {s done : State} {o : Host.Outcome State Fault Refusal}
    (h : endCommand error s done = o) :
    (∃ e, error = some e ∧ o = .next (s.fail e)) ∨ (error = none ∧ o = .next done.complete) := by
  subst h
  cases error with
  | none => exact .inr ⟨rfl, rfl⟩
  | some e => exact .inl ⟨e, rfl, rfl⟩

theorem endCommand_fails {e : ResultCode} {s done : State} : endCommand (some e) s done = .next (s.fail e) := rfl

theorem endCommand_succeeds {s done : State} : endCommand none s done = .next done.complete := rfl

theorem lengthError_none {need : Nat} {pl : Payload} : lengthError need pl = none ↔ pl.length = need := by
  unfold lengthError
  split_ifs <;> simp <;> omega

theorem lengthError_short {need : Nat} {pl : Payload} (h : pl.length < need) : lengthError need pl = some .short := by
  simp [lengthError, h]

theorem lengthError_long {need : Nat} {pl : Payload} (h : need < pl.length) : lengthError need pl = some .frame := by
  simp [lengthError, h, Nat.not_lt.mpr h.le]

theorem lockedError_none {s : State} : lockedError s = none ↔ s.flag .calValid = 0 := by
  have := s.flag_bit (f := .calValid) rfl
  unfold lockedError
  split_ifs <;> simp <;> omega

theorem noCalError_none {s : State} : noCalError s = none ↔ s.flag .calValid = 1 := by
  have := s.flag_bit (f := .calValid) rfl
  unfold noCalError
  split_ifs <;> simp <;> omega

theorem noTfineError_none {s : State} : noTfineError s = none ↔ s.flag .tv = 1 := by
  have := s.flag_bit (f := .tv) rfl
  unfold noTfineError
  split_ifs <;> simp <;> omega

/-- RAW_T and RAW_P hold the decoded sample whole: 20 bits lose nothing of it. -/
@[simp] theorem rawTp_mod (pl : Payload) : rawTp pl % 1048576 = rawTp pl := Nat.mod_eq_of_lt (rawTp_lt pl)

@[simp] theorem rawTp_mod_int (pl : Payload) : (rawTp pl : Int) % 1048576 = rawTp pl := by
  have := rawTp_lt pl
  omega

/-- RAW_H holds the decoded sample whole: 16 bits lose nothing of it. -/
@[simp] theorem rawH_mod (pl : Payload) : rawH pl % 65536 = rawH pl := Nat.mod_eq_of_lt (rawH_lt pl)

@[simp] theorem rawH_mod_int (pl : Payload) : (rawH pl : Int) % 65536 = rawH pl := by
  have := rawH_lt pl
  omega

/-- A host read answers with the register's value and changes nothing else, or faults where there is none. -/
theorem readRegister_cases {n : Nat} {s : State} {o : Host.Outcome State Fault Refusal} (h : readRegister n s = o) :
    (∃ w, s.register n = some w ∧ o = .next (s.giveAnswer w)) ∨
      (s.register n = none ∧ o = .fault (.noValue n)) := by
  subst h
  unfold readRegister
  cases hr : s.register n with
  | none => exact .inr ⟨rfl, rfl⟩
  | some w => exact .inl ⟨w, rfl, rfl⟩

end Sys2Proof.Machine
end

