-- ==== Sys2Proof/Laws/Exec.lean ====
section
/-! SUPPORT. What each meaning, a delivered frame and a step can do, said once: a failure that changes CODE and
ERR_SEEN only, or the success with its conditions. -/

namespace Sys2Proof.Machine

/-- The state a successful LOADCAL leaves (40_calibration.md R100). -/
abbrev afterLoadcal (pl : Payload) (s : State) : State :=
  ((s.storeCal (decodeCal pl)).setFlag .calValid 1).complete

/-- The state a successful COMPT leaves (41_compensation.md R130). -/
abbrev afterCompt (pl : Payload) (s : State) : State :=
  ((s.storeTemperature (rawTp pl) (compT (rawTp pl) s.cal).1 (compT (rawTp pl) s.cal).2).setFlag .tv 1).beginCycle.complete

/-- The state a successful COMPP leaves (R140). -/
abbrev afterCompp (pl : Payload) (s : State) : State :=
  (((s.storePressure (rawTp pl) (compP (rawTp pl) s.cal s.tfine.toInt).1).setFlag .pz
    (compP (rawTp pl) s.cal s.tfine.toInt).2).setFlag .pv 1).complete

/-- The state a successful COMPH leaves (R155). -/
abbrev afterComph (pl : Payload) (s : State) : State :=
  (((s.storeHumidity (rawH pl) (compH (rawH pl) s.cal s.tfine.toInt).1).setFlag .hcl
    (compH (rawH pl) s.cal s.tfine.toInt).2).setFlag .hv 1).complete

theorem execLoadcal_cases {pl : Payload} {s : State} {o : Host.Outcome State Fault Refusal}
    (h : execLoadcal pl s = o) :
    (∃ e, o = .next (s.fail e)) ∨
      (pl.length = 32 ∧ s.flag .calValid = 0 ∧ o = .next (afterLoadcal pl s)) := by
  obtain ⟨e, -, ho⟩ | ⟨he, ho⟩ := endCommand_cases h
  · exact .inl ⟨e, ho⟩
  · rw [Option.or_eq_none_iff, lengthError_none, lockedError_none] at he
    exact .inr ⟨he.1, he.2, ho⟩

theorem execCompt_cases {pl : Payload} {s : State} {o : Host.Outcome State Fault Refusal}
    (h : execCompt pl s = o) :
    (∃ e, o = .next (s.fail e)) ∨
      (pl.length = 3 ∧ s.flag .calValid = 1 ∧ o = .next (afterCompt pl s)) := by
  obtain ⟨e, -, ho⟩ | ⟨he, ho⟩ := endCommand_cases h
  · exact .inl ⟨e, ho⟩
  · rw [Option.or_eq_none_iff, lengthError_none, noCalError_none] at he
    exact .inr ⟨he.1, he.2, ho⟩

theorem execCompp_cases {pl : Payload} {s : State} {o : Host.Outcome State Fault Refusal}
    (h : execCompp pl s = o) :
    (∃ e, o = .next (s.fail e)) ∨
      (pl.length = 3 ∧ s.flag .calValid = 1 ∧ s.flag .tv = 1 ∧ o = .next (afterCompp pl s)) := by
  obtain ⟨e, -, ho⟩ | ⟨he, ho⟩ := endCommand_cases h
  · exact .inl ⟨e, ho⟩
  · rw [Option.or_eq_none_iff, Option.or_eq_none_iff, lengthError_none, noCalError_none, noTfineError_none] at he
    exact .inr ⟨he.1.1, he.1.2, he.2, ho⟩

theorem execComph_cases {pl : Payload} {s : State} {o : Host.Outcome State Fault Refusal}
    (h : execComph pl s = o) :
    (∃ e, o = .next (s.fail e)) ∨
      (pl.length = 2 ∧ s.flag .calValid = 1 ∧ s.flag .tv = 1 ∧ o = .next (afterComph pl s)) := by
  obtain ⟨e, -, ho⟩ | ⟨he, ho⟩ := endCommand_cases h
  · exact .inl ⟨e, ho⟩
  · rw [Option.or_eq_none_iff, Option.or_eq_none_iff, lengthError_none, noCalError_none, noTfineError_none] at he
    exact .inr ⟨he.1.1, he.1.2, he.2, ho⟩

/-! ## The flags the formulas give -/

theorem compP_pz_lt (raw : Int) (c : Cal) (tf : Int) : (compP raw c tf).2 < 2 := by
  unfold compP
  dsimp only
  split_ifs <;> simp

theorem compH_hcl_lt (raw : Int) (c : Cal) (tf : Int) : (compH raw c tf).2 < 4 := by
  unfold compH humClampCode
  dsimp only
  split_ifs <;> simp

/-- A successful COMPP leaves the formula's PZ. -/
theorem afterCompp_pz (pl : Payload) (s : State) :
    (afterCompp pl s).flag .pz = (compP (rawTp pl) s.cal s.tfine.toInt).2 := by
  rw [State.complete_flag_ne _ (by decide), State.flag_setFlag_ne _ _ (by decide)]
  exact State.flag_setFlag_self _ .pz (compP_pz_lt _ _ _)

/-- A successful COMPH leaves the formula's HCL. -/
theorem afterComph_hcl (pl : Payload) (s : State) :
    (afterComph pl s).flag .hcl = (compH (rawH pl) s.cal s.tfine.toInt).2 := by
  rw [State.complete_flag_ne _ (by decide), State.flag_setFlag_ne _ _ (by decide)]
  exact State.flag_setFlag_self _ .hcl (compH_hcl_lt _ _ _)

/-- Everything a command can do: fail, or one of the four successes under its conditions. -/
theorem exec_cases {i : Instr} {s : State} {o : Host.Outcome State Fault Refusal} (h : exec i s = o) :
    (∃ e, o = .next (s.fail e)) ∨
    (∃ pl, i = .loadcal pl ∧ pl.length = 32 ∧ s.flag .calValid = 0 ∧ o = .next (afterLoadcal pl s)) ∨
    (∃ pl, i = .compt pl ∧ pl.length = 3 ∧ s.flag .calValid = 1 ∧ o = .next (afterCompt pl s)) ∨
    (∃ pl, i = .compp pl ∧ pl.length = 3 ∧ s.flag .calValid = 1 ∧ s.flag .tv = 1 ∧ o = .next (afterCompp pl s)) ∨
    (∃ pl, i = .comph pl ∧ pl.length = 2 ∧ s.flag .calValid = 1 ∧ s.flag .tv = 1 ∧ o = .next (afterComph pl s)) := by
  cases i with
  | loadcal pl => exact (execLoadcal_cases h).imp_right fun hs => .inl ⟨pl, rfl, hs⟩
  | compt pl => exact (execCompt_cases h).imp_right fun hs => .inr (.inl ⟨pl, rfl, hs⟩)
  | compp pl => exact (execCompp_cases h).imp_right fun hs => .inr (.inr (.inl ⟨pl, rfl, hs⟩))
  | comph pl => exact (execComph_cases h).imp_right fun hs => .inr (.inr (.inr ⟨pl, rfl, hs⟩))

/-- Everything a delivered frame can do. -/
theorem deliver_cases {f : Frame} {s : State} {o : Host.Outcome State Fault Refusal} (h : deliver f s = o) :
    (∃ i, decode f = .ok i ∧ exec i s = o) ∨ (∃ r, decode f = .error r ∧ o = .next (s.fail (rejectCode r))) := by
  subst h
  unfold deliver
  cases hd : decode f with
  | ok i => exact .inl ⟨i, rfl, rfl⟩
  | error r => exact .inr ⟨r, rfl, rfl⟩

/-- Everything a step can do. -/
theorem step_cases {s : State} {o : Host.Outcome State Fault Refusal} (h : step s = o) :
    (s.pending = [] ∧ o = .next s) ∨
    (∃ f rest, s.pending = .deliver f :: rest ∧ deliver f (s.takeAction rest).advance = o) ∨
    (∃ n rest, s.pending = .read n :: rest ∧ readRegister n (s.takeAction rest) = o) ∨
    (∃ rest, s.pending = .reset :: rest ∧ o = .next (s.takeAction rest).powerOnReset) := by
  subst h
  unfold step
  split
  case h_1 hp => exact .inl ⟨hp, rfl⟩
  case h_2 a rest hp =>
    cases a with
    | deliver f => exact .inr (.inl ⟨f, rest, hp, rfl⟩)
    | read n => exact .inr (.inr (.inl ⟨n, rest, hp, rfl⟩))
    | reset => exact .inr (.inr (.inr ⟨rest, hp, rfl⟩))

end Sys2Proof.Machine
end

