-- ==== Sys2Proof/Laws/PerInstr.lean ====
section
/-! SUPPORT. Per instruction: a command is well formed exactly when its frame has the length its opcode stands for
(30_encoding.md R87, R89). -/

namespace Sys2Proof.Laws

/-- Well formed is: the payload has exactly the required length (R87). -/
theorem wellFormed_iff (i : Instr) : i.wellFormed = true ↔ i.payload.length = i.need := by
  rw [Instr.wellFormed, Bool.and_eq_true, Instr.longEnough, Instr.notTooLong, decide_eq_true_iff, decide_eq_true_iff]
  omega

namespace FrameLength

/-- Well formed is: the frame has the length R89 gives its opcode byte. -/
def Statement (i : Instr) : Prop :=
  i.wellFormed = true ↔ (encode i).head?.bind frameLength = some (encode i).length

theorem loadcal (pl : Payload) : Statement (.loadcal pl) := by
  rw [Statement, wellFormed_iff]
  simp [Instr.need, Instr.payload, encode, frameLength, eq_comm]

theorem compt (pl : Payload) : Statement (.compt pl) := by
  rw [Statement, wellFormed_iff]
  simp [Instr.need, Instr.payload, encode, frameLength, eq_comm]

theorem compp (pl : Payload) : Statement (.compp pl) := by
  rw [Statement, wellFormed_iff]
  simp [Instr.need, Instr.payload, encode, frameLength, eq_comm]

theorem comph (pl : Payload) : Statement (.comph pl) := by
  rw [Statement, wellFormed_iff]
  simp [Instr.need, Instr.payload, encode, frameLength, eq_comm]

end FrameLength

end Sys2Proof.Laws
end

