-- ==== Sys2Proof/Tests/Slice0.lean ====
section
/-! SUPPORT. The model's own tests: the decoder on words written out from the spec, the WellFormed smoke, the spec's test
vectors (95_test_vectors.md), and for every obligation with hypotheses a witness that meets them. -/

namespace Sys2Proof.Tests

open Sys2Proof Sys2Proof.Machine

/-! ## Small states -/

/-- Just after reset and LOADCAL of calibration set G. -/
def calibrated : State := { State.reset with cal := goldenCal, status := 0x0001 }

/-- And then COMPT `7E ED 00`. -/
def warm : State :=
  { State.reset with cal := goldenCal, status := 0x0003, rawT := 519888, tfine := 128422, temp := 2508 }

/-- And then COMPP `65 5A C0` and COMPH `75 30`. -/
def full : State :=
  { warm with status := 0x000F, rawP := 415148, press := 25767233, rawH := 30000, hum := 56317 }

/-- Calibration set G0: G with P1 = 0. -/
def warmZeroP1 : State := { warm with cal := { goldenCal with p1 := 0 } }

/-- The next state of an outcome. -/
def nextOf (o : Host.Outcome State Fault Refusal) : Option State :=
  match o with
  | .next t => some t
  | .fault _ => none
  | .refused _ => none

/-- STATUS after a frame, as 95_test_vectors.md's tables give it. -/
def statusAfter (f : Frame) (s : State) : Option (BitVec 16) := (nextOf (deliver f s)).map State.status

/-! ## Decoding, on words written out from 30_encoding.md R82 to R85 -/

theorem test_decode_loadcal : decodeTableWord 8 0b00000001 = some (.loadcal (List.replicate 32 0)) := by decide

theorem test_decode_compt : decodeTableWord 32 0x00ED7E02 = some (.compt [0x7E, 0xED, 0x00]) := by decide

theorem test_decode_compp : decodeTableWord 32 0xC05A6503 = some (.compp [0x65, 0x5A, 0xC0]) := by decide

theorem test_decode_comph : decodeTableWord 24 0x307504 = some (.comph [0x75, 0x30]) := by decide

theorem test_decode_illegal : decodeTableWord 8 0x00 = none ∧ decodeTableWord 8 0x05 = none ∧ decodeTableWord 8 0xFF = none := by decide

theorem test_encode_lengths : (encode (.loadcal (List.replicate 32 0))).length = 33 ∧
    (encode (.compt [0, 0, 0])).length = 4 ∧ (encode (.compp [0, 0, 0])).length = 4 ∧
    (encode (.comph [0, 0])).length = 3 := by decide

/-- From reset, the next step runs exactly the table word's command: here COMPT, which fails with E_NOCAL (V-T-E1). -/
theorem test_fetch_word_runs : (nextOf (step (State.reset.withFetchWord 8 2))).map State.status = some 0x0510 := by decide

/-! ## WellFormed: each check refuses an ill-formed command -/

theorem smoke_too_short : (Instr.compt [0x7E, 0xED]).longEnough = false ∧ (Instr.compt [0x7E, 0xED]).wellFormed = false := by decide

theorem smoke_too_long : (Instr.comph [0x75, 0x30, 0x00]).notTooLong = false ∧
    (Instr.comph [0x75, 0x30, 0x00]).wellFormed = false := by decide

theorem smoke_exact : (Instr.loadcal goldenPayload).wellFormed = true ∧ (Instr.compp [0x65, 0x5A, 0xC0]).wellFormed = true := by decide

/-! ## LOADCAL (V-LC-1, V-LC-4, V-CAL-2, V-CAL-3) -/

theorem test_loadcal_golden : (nextOf (execLoadcal goldenPayload State.reset)).map (fun t => (t.cal, t.status)) = some (goldenCal, 0x0001) := by decide

theorem test_loadcal_locked : statusAfter (0x01 :: goldenPayload) calibrated = some 0x0411 := by decide

theorem test_packed_fields_negative : (let c := decodeCal (List.replicate 25 0 ++ [0x00, 0x00, 0x00, 0x80, 0xF0, 0xFF, 0x80]);
    (c.h4, c.h5, c.h6) = (-2048, -1, -128)) := by decide

theorem test_packed_fields_share_a_byte : (let c := decodeCal (List.replicate 25 0 ++ [0xFF, 0x7F, 0xFF, 0x7F, 0x0F, 0x7F, 0x7F]);
    (c.h2, c.h3, c.h4, c.h5, c.h6) = (32767, 255, 2047, 2032, 127)) := by decide

/-! ## COMPT (V-T-4, V-S-3) -/

theorem test_compt_negative : (nextOf (execCompt [0x61, 0xA8, 0x00] calibrated)).map
    (fun t => (t.rawT.toNat, t.tfine.toInt, t.temp.toInt, t.status)) = some (400000, -64736, -1264, 0x0003) := by decide

theorem test_compt_invalidates_press : (nextOf (execCompt [0x80, 0x00, 0x00] full)).map
    (fun t => (t.tfine.toInt, t.register 0x03, t.status)) = some (135479, none, 0x0003) := by decide

/-! ## COMPP (V-P-5, V-P-2) -/

theorem test_compp_floor_division : (nextOf (execCompp [0xFF, 0xF8, 0x60] warm)).map
    (fun t => (t.rawP.toNat, t.press.toInt, t.status)) = some (1048454, -1692359, 0x0007) := by decide

theorem test_compp_zero_divisor : (nextOf (execCompp [0x65, 0x5A, 0xC0] warmZeroP1)).map
    (fun t => (t.press.toInt, t.status)) = some (0, 0x0027) := by decide

/-! ## COMPH (V-H-1, V-H-6) -/

theorem test_comph_golden : (nextOf (execComph [0x75, 0x30] warm)).map
    (fun t => (t.rawH.toNat, t.hum.toNat, t.status)) = some (30000, 56317, 0x000B) := by decide

theorem test_comph_clamped_high : (nextOf (execComph [0x95, 0x03] warm)).map
    (fun t => (t.rawH.toNat, t.hum.toNat, t.status)) = some (38147, 102400, 0x008B) := by decide

/-! ## Framing errors and their order (V-E-1, V-E-4, V-T-E2, V-LC-5, V-P-E2, V-S-2) -/

theorem test_framing_errors : statusAfter [] State.reset = some 0x0310 ∧
    statusAfter [0xFF, 0x01, 0x02, 0x03] State.reset = some 0x0110 ∧
    statusAfter [0x02, 0x7E, 0xED] State.reset = some 0x0210 := by decide

theorem test_check_order : statusAfter (0x01 :: goldenPayload ++ [0x00]) calibrated = some 0x0311 ∧
    statusAfter [0x03, 0x65, 0x5A, 0xC0] calibrated = some 0x0611 ∧
    statusAfter [0x02, 0x80, 0x00] { full with status := 0x0007 } = some 0x0217 := by decide

/-! ## The read port and reset -/

theorem test_read_answers : (nextOf (step { warm with pending := [.read 0x02] })).map
    (fun t => (t.answers, t.pending)) = some ([⟨32, 2508⟩], []) := by decide

theorem test_read_of_no_value_faults : step { warm with pending := [.read 0x03] } = .fault (.noValue 0x03) ∧
    step { warm with pending := [.read 0x22] } = .fault (.noValue 0x22) := ⟨rfl, rfl⟩

theorem test_reset_keeps_the_host : (nextOf (step { full with position := 4, pending := [.reset, .read 0] })).map
    (fun t => (t.status, t.position, t.pending)) = some (0x0000, 4, [.read 0]) := by decide

theorem test_signed_cal_field_reads_as_pattern : calibrated.register 0x12 = some ⟨16, 0xFC18⟩ ∧
    wordValue 0x12 ⟨16, 0xFC18⟩ = -1000 ∧ wordValue 0x13 ⟨16, 0x8E7D⟩ = 36477 := by decide

/-! ## The host's side (V-FRM-1, V-FRM-2, V-ORDER) and the assembler (R91, R92, R93) -/

theorem test_wire_frames : (Transfer.write 0xF4 [0x27]).wire = [0x74, 0x27] ∧
    (Transfer.read 0xFA 3).wire = [0xFA, 0x00, 0x00, 0x00] ∧ (Transfer.read 0x12 1).wire = [0x92, 0x00] ∧
    responsePayload [0xE0, 0x7E, 0xED, 0x00] = [0x7E, 0xED, 0x00] := by decide

theorem test_configuration_order : configurationOrdered [.write 0xF2 [1], .write 0xF4 [0x27]] = true ∧
    configurationOrdered [.write 0xF4 [0x27], .write 0xF2 [1]] = false ∧
    snapshotConsistent calibrationReads = true ∧
    snapshotConsistent [.read 0x88 24, .write 0xF4 [0x27], .read 0xA1 1, .read 0xE1 7] = false := by decide

/-- R198, R92: the model's full cycle is one the host may deliver, and the one CYCLE expands to. -/
theorem test_cycle_frames_are_allowed (sensor : Nat → Byte) :
    cycleFrames sensor ∈ cycleChoices sensor ∧
    (AsmLine.cycle (sensor 0xFA) (sensor 0xFB) (sensor 0xFC) (sensor 0xF7) (sensor 0xF8) (sensor 0xF9)
      (sensor 0xFD) (sensor 0xFE)).frames = cycleFrames sensor :=
  ⟨.tail _ (.tail _ (.head _)), rfl⟩

/-- R55, R233 fix no order of the three reads, and a snapshot may be started again after a write. -/
theorem test_snapshot_order_is_free :
    snapshotConsistent [.write 0xF4 [0x27], .read 0xA1 1, .read 0xFA 3, .read 0xE1 7, .read 0x88 24] = true ∧
    snapshotConsistent (.read 0x88 24 :: .write 0xF4 [0x27] :: calibrationReads) = true ∧
    snapshotConsistent [.read 0x88 24, .read 0xA1 1, .write 0xF4 [0x27], .read 0xE1 7, .read 0xA1 1] = false := by
  decide

theorem test_assemble_raw : assembleLine "COMPT.RAW 519888 ; golden".toList = some [[0x02, 0x7E, 0xED, 0x00]] := by decide

theorem test_assemble_coefficients : assembleLine
    ("LOADCAL.COEF T1=27504, T2=26435, T3=-1000, P1=36477, P2=-10685, P3=3024, P4=2855, P5=140, P6=-7, P7=15500, ".toList ++
     "P8=-14600, P9=6000, H1=75, H2=362, H3=0, H4=313, H5=50, H6=30".toList) = some [0x01 :: goldenPayload] := by decide

theorem test_assemble_cycle : assembleLine "cycle 7E,ED,00, 65,5A,C0, 0x75,30".toList =
    some [[0x02, 0x7E, 0xED, 0x00], [0x03, 0x65, 0x5A, 0xC0], [0x04, 0x75, 0x30]] := by decide

theorem test_assemble_frame_and_errors : assembleLine ".frame 02, 7E, ED, 00, 00".toList = some [[0x02, 0x7E, 0xED, 0x00, 0x00]] ∧
    assembleLine ".frame".toList = some [[]] ∧ assembleLine "; only a comment".toList = some [] ∧
    assembleLine "COMPT 7E, ED".toList = none := by decide

/-! ## Witnesses: states and operands that meet an obligation's hypotheses, clause by clause -/

theorem witness_ArithmeticIsExactWithFloors : (-3 : Int) ≠ 0 ∧ ((-1 : Int) < 0) ∧ ((0 : Int) ≤ 5 ∧ (5 : Int) > 4) ∧
    ((0 : Int) ≤ 4 ∧ (4 : Int) ≤ 4) := by decide

theorem witness_ReservedNibbleIsIgnored : (0x70#8 : Byte) >>> 4 = 0x7F#8 >>> 4 ∧ (0x70#8 : Byte) ≠ 0x7F#8 := by decide

theorem witness_FramesAndCommandsCorrespond : decode [0x04, 0x75, 0x30] = .ok (.comph [0x75, 0x30]) := rfl

theorem witness_CalibrationCodecIsBijective : goldenPayload.length = 32 ∧ goldenCal.InRange ∧ allOnesCal.InRange :=
  ⟨by decide, by decide, by decide⟩

theorem witness_RawPseudoCommandsEncodeTheirSample : 1048575 < 2 ^ 20 ∧ (0xF0#8 : Byte).toNat % 16 = 0 ∧
    rawTp [0xFF, 0xFF, 0xF0] = 1048575 ∧ 65535 < 2 ^ 16 ∧ rawH [0xFF, 0xFF] = 65535 := by decide

theorem witness_TemperatureCornerCases : (let c : Cal := { goldenCal with t1 := 65535, t2 := -32768, t3 := 32767 };
    c.t1 = 65535 ∧ c.t2 = -32768 ∧ c.t3 = 32767) ∧
    (let c : Cal := { goldenCal with t1 := 0, t2 := -32768, t3 := -32768 };
    c.t1 = 0 ∧ c.t2 = -32768 ∧ c.t3 = -32768) ∧
    (let d : Cal := { goldenCal with p1 := 0, h1 := 0 };
    goldenCal.t1 = d.t1 ∧ goldenCal.t2 = d.t2 ∧ goldenCal.t3 = d.t3 ∧ goldenCal ≠ d) := by decide

/-- The two cases of the divisor, as `comp_p` computes it: 0 with P1 = 0, and not 0 with calibration G. -/
theorem witness_PressureFormula : pressDivisor { goldenCal with p1 := 0 } 128422 = 0 ∧ pressDivisor goldenCal 128422 ≠ 0 := by decide

theorem witness_ZeroDivisorGuard : ([0x65, 0x5A, 0xC0] : Payload).length = 3 ∧ warmZeroP1.flag .calValid = 1 ∧
    warmZeroP1.flag .tv = 1 ∧ pressDivisor warmZeroP1.cal warmZeroP1.tfine.toInt = 0 ∧ warmZeroP1.cal.p1 = 0 := by decide

theorem witness_PressureCornerCases : (let d : Cal := { goldenCal with t1 := 0, h1 := 0 };
    goldenCal.p1 = d.p1 ∧ goldenCal.p2 = d.p2 ∧ goldenCal.p3 = d.p3 ∧ goldenCal.p4 = d.p4 ∧ goldenCal.p5 = d.p5 ∧
    goldenCal.p6 = d.p6 ∧ goldenCal.p7 = d.p7 ∧ goldenCal.p8 = d.p8 ∧ goldenCal.p9 = d.p9 ∧ goldenCal ≠ d) ∧
    (nextOf (exec (.compp [0x65, 0x5A, 0xC0]) warm)).isSome = true ∧ warmZeroP1.cal.p1 = 0 := by decide

/-- Below, above and inside the clamp's range, with its lower edge region (R161). -/
theorem witness_HumidityFormula : humUnclamped 20188 goldenCal 128422 < 0 ∧ humUnclamped 38147 goldenCal 128422 > 419430400 ∧
    0 ≤ humUnclamped 20189 goldenCal 128422 ∧ humUnclamped 38146 goldenCal 128422 ≤ 419430400 := by decide

theorem witness_HumidityIsClamped : (compH 20188 goldenCal 128422).2 = 1 ∧ (compH 38147 goldenCal 128422).2 = 2 ∧
    (compH 30000 goldenCal 128422).2 = 0 := by decide

theorem witness_HumidityCornerCases : (let c : Cal := Cal.zero;
    c.h1 = 0 ∧ c.h2 = 0 ∧ c.h3 = 0 ∧ c.h4 = 0 ∧ c.h5 = 0 ∧ c.h6 = 0) := by decide

/-- The bounds' domain at its ends, with a divisor that is not 0. -/
theorem witness_IntermediateBounds : goldenCal.InRange ∧ (0 ≤ (1048575 : Int) ∧ (1048575 : Int) ≤ 1048575) ∧
    (-4194224 ≤ (-4194224 : Int) ∧ (-4194224 : Int) ≤ 4194144) ∧ (0 ≤ (65535 : Int) ∧ (65535 : Int) ≤ 65535) ∧
    pressDivisor goldenCal (-4194224) ≠ 0 := by decide

/-- A state of a whole cycle meets the invariant, with every valid bit set. -/
theorem witness_full_Inv : full.Inv := by constructor <;> decide

theorem witness_RegistersHoldExactResults : full.Inv ∧ full.flag .tv = 1 ∧ full.flag .pv = 1 ∧ full.flag .hv = 1 :=
  ⟨witness_full_Inv, by decide⟩

theorem witness_LoadcalLoadsOnce : (goldenPayload.take 31).length < 32 ∧ (goldenPayload ++ [0x00]).length > 32 ∧
    (goldenPayload.length = 32 ∧ calibrated.flag .calValid = 1) ∧
    (goldenPayload.length = 32 ∧ State.reset.flag .calValid = 0) := by decide

theorem witness_ComptComputesTemperature : ([0x7E, 0xED] : Payload).length < 3 ∧ ([0x7E, 0xED, 0x00, 0x00] : Payload).length > 3 ∧
    (([0x7E, 0xED, 0x00] : Payload).length = 3 ∧ State.reset.flag .calValid = 0) ∧
    (calibrated.flag .calValid = 1 ∧ calibrated.cal.t1 = 27504 ∧ calibrated.cal.t2 = 26435 ∧ calibrated.cal.t3 = -1000) := by decide

theorem witness_ComppComputesPressure : ([0x65, 0x5A] : Payload).length < 3 ∧ ([0x65, 0x5A, 0xC0, 0x00] : Payload).length > 3 ∧
    (([0x65, 0x5A, 0xC0] : Payload).length = 3 ∧ State.reset.flag .calValid = 0) ∧
    (calibrated.flag .calValid = 1 ∧ calibrated.flag .tv = 0) ∧
    (warm.flag .calValid = 1 ∧ warm.flag .tv = 1 ∧ warm.cal = goldenCal ∧ warm.tfine.toInt = 128422) := by decide

theorem witness_ComphComputesHumidity : ([0x75] : Payload).length < 2 ∧ ([0x75, 0x30, 0x00] : Payload).length > 2 ∧
    (([0x75, 0x30] : Payload).length = 2 ∧ State.reset.flag .calValid = 0) ∧
    (calibrated.flag .calValid = 1 ∧ calibrated.flag .tv = 0) ∧
    (warm.flag .calValid = 1 ∧ warm.flag .tv = 1 ∧ warm.cal.h1 = 75 ∧ warm.cal.h2 = 362 ∧ warm.cal.h3 = 0 ∧
      warm.cal.h4 = 313 ∧ warm.cal.h5 = 50 ∧ warm.cal.h6 = 30 ∧ warm.tfine.toInt = 128422) := by decide

theorem witness_EdgeCasesAreFlagsNotErrors :
    (warmZeroP1.flag .calValid = 1 ∧ warmZeroP1.flag .tv = 1 ∧ pressDivisor warmZeroP1.cal warmZeroP1.tfine.toInt = 0) ∧
    (warm.flag .calValid = 1 ∧ warm.flag .tv = 1 ∧ pressDivisor warm.cal warm.tfine.toInt ≠ 0) ∧
    humUnclamped (rawH [0x4E, 0xDC]) warm.cal warm.tfine.toInt < 0 ∧
    humUnclamped (rawH [0x95, 0x03]) warm.cal warm.tfine.toInt > 419430400 ∧
    (0 ≤ humUnclamped (rawH [0x75, 0x30]) warm.cal warm.tfine.toInt ∧
      humUnclamped (rawH [0x75, 0x30]) warm.cal warm.tfine.toInt ≤ 419430400) := by decide

/-- Two states with one CAL and TFINE and different histories, in which all three commands succeed. -/
theorem witness_ResultsDependOnOperandsOnly : warm.cal = full.cal ∧ warm.tfine = full.tfine ∧ warm ≠ full ∧
    ((nextOf (exec (.compp [0x65, 0x5A, 0xC0]) warm)).map (State.flag · .code) = some 0 ∧
     (nextOf (exec (.compp [0x65, 0x5A, 0xC0]) full)).map (State.flag · .code) = some 0) ∧
    ((nextOf (exec (.compt [0x7E, 0xED, 0x00]) warm)).map (State.flag · .code) = some 0 ∧
     (nextOf (exec (.compt [0x7E, 0xED, 0x00]) full)).map (State.flag · .code) = some 0) ∧
    ((nextOf (exec (.comph [0x75, 0x30]) warm)).map (State.flag · .code) = some 0 ∧
     (nextOf (exec (.comph [0x75, 0x30]) full)).map (State.flag · .code) = some 0) := by decide

theorem witness_PressureAndHumidityCommute : ([0x65, 0x5A, 0xC0] : Payload).length = 3 ∧ ([0x75, 0x30] : Payload).length = 2 ∧
    warm.flag .calValid = 1 ∧ warm.flag .tv = 1 := by decide

/-- Each writer of STATUS changes its fields somewhere. -/
theorem witness_StatusLayoutAndWriters :
    (nextOf (exec (.loadcal goldenPayload) State.reset)).map State.status = some 0x0001 ∧
    (nextOf (exec (.compt [0x7E, 0xED, 0x00]) calibrated)).map State.status = some 0x0003 ∧
    (nextOf (exec (.compp [0x65, 0x5A, 0xC0]) warmZeroP1)).map State.status = some 0x0027 ∧
    (nextOf (exec (.comph [0x4E, 0xDC]) warm)).map State.status = some 0x004B ∧
    (nextOf (exec (.compt [0x7E, 0xED, 0x00]) { full with status := 0x00AF })).map State.status = some 0x0003 ∧
    (nextOf (exec (.compt []) State.reset)).map State.status = some 0x0210 := by decide

theorem witness_RegisterNumbers : (full.flag .tv = 1 ∧ full.flag .pv = 1 ∧ full.flag .hv = 1 ∧ full.flag .calValid = 1) ∧
    (State.reset.flag .tv = 0 ∧ State.reset.flag .pv = 0 ∧ State.reset.flag .hv = 0 ∧ State.reset.flag .calValid = 0) ∧
    full.register 0x21 = some ⟨8, 30⟩ ∧ full.register 0x08 = none ∧ full.register 0x0F = none ∧ full.register 0x22 = none := by decide

theorem witness_HostReadsHaveNoSideEffect :
    (let s : State := { warm with pending := [.read 0x01, .reset] };
     s.pending = .read 0x01 :: [.reset] ∧ s.register 0x01 = some ⟨32, 128422⟩) ∧
    (let s : State := { warm with pending := [.read 0x03] }; s.pending = .read 0x03 :: [] ∧ s.register 0x03 = none) := by decide

theorem witness_ResetLeavesNoValue : ({ full with pending := [.reset, .read 0] } : State).pending = .reset :: [.read 0] := by decide

theorem witness_ResetLeavesTheHostSide :
    ({ full with position := 5, pending := [.reset, .read 0] } : State).pending = .reset :: [.read 0] := rfl

theorem witness_StepRunsTheDecodedCommand :
    ({ warm with pending := [.deliver [0x04, 0x75, 0x30]] } : State).pending = .deliver [0x04, 0x75, 0x30] :: [] ∧
    decode [0x04, 0x75, 0x30] = .ok (.comph [0x75, 0x30]) := ⟨rfl, rfl⟩

theorem witness_NonCommandsFail :
    (({ warm with pending := [.deliver [0x05]] } : State).pending = .deliver ((0x05 : Byte) :: []) :: [] ∧
      5 ≤ (0x05 : Byte).toNat) ∧
    (({ warm with pending := [.deliver [0x00, 0x01]] } : State).pending = .deliver ((0x00 : Byte) :: [0x01]) :: [] ∧
      (0x00 : Byte).toNat = 0) ∧
    ({ warm with pending := [.deliver []] } : State).pending = .deliver [] :: [] := by decide

theorem witness_WrongLengthFails :
    ({ warm with pending := [.deliver [0x04, 0x75]] } : State).pending = .deliver ((0x04 : Byte) :: [0x75]) :: [] ∧
    ([0x75] : Payload).length < requiredLength (0x04 : Byte).toNat ∧
    ([0x75, 0x30, 0x00] : Payload).length > requiredLength (0x04 : Byte).toNat ∧
    goldenPayload.length = requiredLength (0x01 : Byte).toNat ∧ 1 ≤ (0x01 : Byte).toNat ∧ (0x04 : Byte).toNat ≤ 4 := by decide

/-- Every code of R182 is decided by some frame and state. -/
theorem witness_FirstCheckDecidesTheCode : firstCheck 1 1 [] = 3 ∧ firstCheck 1 1 [0x05] = 1 ∧
    firstCheck 0 0 [0x02, 0x7E, 0xED] = 2 ∧ firstCheck 1 1 [0x02, 0x7E, 0xED, 0x00, 0x00] = 3 ∧
    firstCheck 1 0 (0x01 :: goldenPayload) = 4 ∧ firstCheck 0 0 [0x03, 0x65, 0x5A, 0xC0] = 5 ∧
    firstCheck 1 0 [0x04, 0x75, 0x30] = 6 ∧ firstCheck 1 1 [0x04, 0x75, 0x30] = 0 ∧
    ({ warm with pending := [.deliver []] } : State).pending = .deliver [] :: [] := by decide

theorem witness_FailureChangesNothingElse :
    ({ full with pending := [.deliver [0x02, 0x80]] } : State).pending = .deliver [0x02, 0x80] :: [] ∧
    firstCheck (full.flag .calValid) (full.flag .tv) [0x02, 0x80] ≠ 0 := by decide

/-- The hypotheses of the statement about old results, in a state that has them. -/
theorem witness_FailureKeepsOldResultsReadable :
    ({ full with pending := [.deliver [0x03]] } : State).pending = .deliver [0x03] :: [] ∧
    firstCheck (full.flag .calValid) (full.flag .tv) [0x03] ≠ 0 ∧ full.register 0x03 = some ⟨128, 25767233⟩ := by decide

theorem witness_ErrSeenIsSticky :
    ({ warm with pending := [.deliver [0x05]] } : State).pending = .deliver [0x05] :: [] ∧
    (nextOf (step { warm with status := 0x0013, pending := [.reset] })).map (State.flag · .errSeen) = some 0 ∧
    ({ warm with status := 0x0013 } : State).flag .errSeen = 1 := by decide

theorem witness_PositionCountsCommands :
    (nextOf (step { warm with pending := [.deliver [0x05], .reset] })).isSome = true ∧
    (nextOf (step { warm with pending := [.read 0] })).isSome = true ∧ (nextOf (step warm)).isSome = true := by decide

theorem witness_EachRegisterHasOneWriter :
    (nextOf (exec (.loadcal goldenPayload) State.reset)).map (fun t => decide (t.cal ≠ State.reset.cal)) = some true ∧
    (nextOf (exec (.compt [0x7E, 0xED, 0x00]) calibrated)).map (fun t => decide (¬ SameTemperature calibrated t)) = some true ∧
    (nextOf (exec (.compp [0x65, 0x5A, 0xC0]) warm)).map (fun t => decide (¬ SamePressure warm t)) = some true ∧
    (nextOf (exec (.comph [0x75, 0x30]) warm)).map (fun t => decide (¬ SameHumidity warm t)) = some true := by decide

/-- A run with commands, a failure and a read, and no reset, from a state with all three bits set. -/
theorem witness_OnlyResetUnloadsCalibration :
    (let s : State := { warm with status := 0x0013, pending := [.deliver (0x01 :: goldenPayload), .deliver [], .read 0] };
     (∃ t, Host.Core.run Sys2Proof.core 3 s = .next t) ∧ s.NoResetPending ∧ s.flag .calValid = 1 ∧ s.flag .tv = 1 ∧
       s.flag .errSeen = 1) := ⟨⟨_, rfl⟩, by decide⟩

/-- A clean run and one that is not, of two frames each. -/
theorem witness_RunsCompleteAndCleanMeansNoFailure :
    (∃ t, Host.Core.run Sys2Proof.core 2
      (State.resetWith ([0x01 :: goldenPayload, [0x02, 0x7E, 0xED, 0x00]].map HostAction.deliver)) = .next t ∧ t.Clean) ∧
    (∃ t, Host.Core.run Sys2Proof.core 2
      (State.resetWith ([[0x05], 0x01 :: goldenPayload].map HostAction.deliver)) = .next t ∧ ¬ t.Clean) :=
  ⟨⟨_, rfl, by decide⟩, ⟨_, rfl, by decide⟩⟩

theorem witness_EveryStepKeepsInv : full.Inv ∧ (nextOf (step full)).isSome = true := ⟨witness_full_Inv, by decide⟩

/-- From reset, a run of two commands reaches a state with TV = 1. -/
theorem witness_ReachableStatesAreCoherent :
    ∃ t, Host.Core.run Sys2Proof.core 2
      (State.resetWith [.deliver (0x01 :: goldenPayload), .deliver [0x02, 0x7E, 0xED, 0x00]]) = .next t ∧
      t.flag .tv = 1 := ⟨_, rfl, by decide⟩

/-- Two different states that the host cannot tell apart. -/
theorem witness_HiddenValuesNeverMatter :
    (let s : State := { calibrated with tfine := 5, hum := 7, pending := [.deliver [0x02, 0x7E, 0xED, 0x00]] };
     let t : State := { calibrated with rawP := 3, pending := [.deliver [0x02, 0x7E, 0xED, 0x00]] };
     s.view = t.view ∧ s ≠ t) := by decide

end Sys2Proof.Tests
end

section
/-! The notation of 00_scope.md against rational floors: division, shifts and the clamp (R7 to R11). -/

namespace Sys2Proof.Machine

/-- R9: floor division rounds the rational quotient toward −∞, for divisors of either sign. -/
theorem floorDiv_eq_floor (a b : Int) : floorDiv a b = ⌊(a : ℚ) / (b : ℚ)⌋ := by
  unfold floorDiv
  obtain ⟨n, rfl | rfl⟩ := b.eq_nat_or_neg
  case inl => -- a non-negative divisor: floor and Euclidean division agree
    rw [Int.fdiv_eq_ediv_of_nonneg a n.cast_nonneg, Int.cast_natCast, Rat.floor_intCast_div_natCast]
  case inr => -- a negative divisor: negate both operands first
    have hquot : (a : ℚ) / ((-n : Int) : ℚ) = ((-a : Int) : ℚ) / (n : ℚ) := by
      push_cast
      rw [div_neg, neg_div]
    rw [hquot, Rat.floor_intCast_div_natCast, ← Int.neg_fdiv_neg, neg_neg,
      Int.fdiv_eq_ediv_of_nonneg _ n.cast_nonneg]

/-- R7: the floor shift is floor division by the power of two. -/
theorem asr_eq_floorDiv (x : Int) (k : Nat) : asr x k = floorDiv x (2 ^ k) := rfl

/-- R7: the floor shift as the floor of a rational. -/
theorem asr_eq_floor (x : Int) (k : Nat) : asr x k = ⌊(x : ℚ) / 2 ^ k⌋ := by
  rw [asr_eq_floorDiv, floorDiv_eq_floor, Int.cast_pow, Int.cast_ofNat]

/-- R8: the left shift is exact. -/
theorem shl_eq_mul (x : Int) (k : Nat) : shl x k = x * 2 ^ k := rfl

theorem clamp_of_lt_lo {v lo : Int} (hi : Int) (h : v < lo) : clamp v lo hi = lo := if_pos h

theorem clamp_of_hi_lt {v lo hi : Int} (hlo : lo ≤ v) (hhi : v > hi) : clamp v lo hi = hi := by
  rw [clamp, if_neg hlo.not_gt, if_pos hhi]

theorem clamp_of_mem {v lo hi : Int} (hlo : lo ≤ v) (hhi : v ≤ hi) : clamp v lo hi = v := by
  rw [clamp, if_neg hlo.not_gt, if_neg hhi.not_gt]

/-- R7's example, by the two inequalities that define the floor. -/
theorem asr_neg_6076000_14 : asr (-6076000) 14 = -371 := (asr_iff _ _ _).mpr (by norm_num)

/-- Settles O1: each operation of the notation by its own law. -/
theorem arithmeticIsExactWithFloors : Obligations.ArithmeticIsExactWithFloors :=
  ⟨asr_eq_floor, asr_neg_6076000_14, shl_eq_mul, fun a b _ => floorDiv_eq_floor a b,
    fun _ _ hi => ⟨clamp_of_lt_lo hi, clamp_of_hi_lt, clamp_of_mem⟩⟩

end Sys2Proof.Machine
end

section
/-! How every command and every delivered frame ends: the first check of 60_exceptions.md R182 that applies decides the
code, and without one the command's own writes stand. -/

namespace Sys2Proof.Machine

/-! ## The checks of a command -/

/-- The checks of R182 that a command makes, in its own order (R100, R130, R140, R155): the first one that applies. -/
def commandError (i : Instr) (s : State) : Option ResultCode :=
  match i with
  | .loadcal pl => (lengthError Config.calPayloadBytes pl).or (lockedError s)
  | .compt pl => (lengthError Config.samplePayloadBytes pl).or (noCalError s)
  | .compp pl => ((lengthError Config.samplePayloadBytes pl).or (noCalError s)).or (noTfineError s)
  | .comph pl => ((lengthError Config.humidityPayloadBytes pl).or (noCalError s)).or (noTfineError s)

/-- The state a successful command leaves. -/
def afterCommand (i : Instr) (s : State) : State :=
  match i with
  | .loadcal pl => afterLoadcal pl s
  | .compt pl => afterCompt pl s
  | .compp pl => afterCompp pl s
  | .comph pl => afterComph pl s

/-- A command that passes its checks leaves its own writes (R183). -/
theorem exec_of_no_error {i : Instr} {s : State} (h : commandError i s = none) :
    exec i s = .next (afterCommand i s) := by
  cases i <;> exact congrArg (endCommand · s _) h

/-- A command that a check stops fails with that check's code (R185). -/
theorem exec_of_error {i : Instr} {s : State} {e : ResultCode} (h : commandError i s = some e) :
    exec i s = .next (s.fail e) := by
  cases i <;> exact congrArg (endCommand · s _) h

theorem lengthError_ne_ok (need : Nat) (pl : Payload) : lengthError need pl ≠ some .ok := by
  unfold lengthError
  split_ifs <;> simp

theorem lockedError_ne_ok (s : State) : lockedError s ≠ some .ok := by
  unfold lockedError
  split_ifs <;> simp

theorem noCalError_ne_ok (s : State) : noCalError s ≠ some .ok := by
  unfold noCalError
  split_ifs <;> simp

theorem noTfineError_ne_ok (s : State) : noTfineError s ≠ some .ok := by
  unfold noTfineError
  split_ifs <;> simp

/-- No check answers with the code of success. -/
theorem commandError_ne_ok (i : Instr) (s : State) : commandError i s ≠ some .ok := by
  cases i <;>
    simp [commandError, Option.or_eq_some_iff, lengthError_ne_ok, lockedError_ne_ok, noCalError_ne_ok, noTfineError_ne_ok]

/-! ## The code of the first check that applies -/

/-- The code a command ends with: its error's number, or 0 (R181). -/
def resultCode (error : Option ResultCode) : Nat := (error.getD .ok).code

theorem resultCode_lengthError_or (need : Nat) (pl : Payload) (later : Option ResultCode) :
    resultCode ((lengthError need pl).or later) =
      if pl.length < need then 2 else if need < pl.length then 3 else resultCode later := by
  unfold lengthError
  split_ifs <;> rfl

theorem resultCode_lockedError (s : State) :
    resultCode (lockedError s) = if s.flag .calValid = 1 then 4 else 0 := by
  unfold lockedError
  split_ifs <;> rfl

theorem resultCode_noCalError_or (s : State) (later : Option ResultCode) :
    resultCode ((noCalError s).or later) = if s.flag .calValid = 0 then 5 else resultCode later := by
  unfold noCalError
  split_ifs <;> rfl

theorem resultCode_noCalError (s : State) :
    resultCode (noCalError s) = if s.flag .calValid = 0 then 5 else 0 := by
  unfold noCalError
  split_ifs <;> rfl

theorem resultCode_noTfineError (s : State) :
    resultCode (noTfineError s) = if s.flag .tv = 0 then 6 else 0 := by
  unfold noTfineError
  split_ifs <;> rfl

/-- R182's list, applied to a command's frame, is the command's own checks. -/
theorem firstCheck_encode (i : Instr) (s : State) :
    firstCheck (s.flag .calValid) (s.flag .tv) (encode i) = resultCode (commandError i s) := by
  cases i with
  | loadcal pl =>
    simp [firstCheck, encode, requiredLength, commandError, resultCode_lengthError_or, resultCode_lockedError]
  | compt pl =>
    simp [firstCheck, encode, requiredLength, commandError, resultCode_lengthError_or, resultCode_noCalError]
  | compp pl =>
    simp [firstCheck, encode, requiredLength, commandError, Option.or_assoc, resultCode_lengthError_or,
      resultCode_noCalError_or, resultCode_noTfineError]
  | comph pl =>
    simp [firstCheck, encode, requiredLength, commandError, Option.or_assoc, resultCode_lengthError_or,
      resultCode_noCalError_or, resultCode_noTfineError]

theorem ResultCode.code_eq_zero {e : ResultCode} : e.code = 0 ↔ e = .ok := by cases e <;> decide

theorem ResultCode.code_le (e : ResultCode) : e.code ≤ 6 := by cases e <;> decide

/-- A command fails with the code of the first check that applies, or succeeds because none does. -/
theorem exec_outcome (i : Instr) (s : State) :
    (∃ e, e ≠ .ok ∧ firstCheck (s.flag .calValid) (s.flag .tv) (encode i) = e.code ∧ exec i s = .next (s.fail e)) ∨
    (firstCheck (s.flag .calValid) (s.flag .tv) (encode i) = 0 ∧ exec i s = .next (afterCommand i s)) := by
  rw [firstCheck_encode]
  cases h : commandError i s with
  | some e => exact .inl ⟨e, fun he => commandError_ne_ok i s (he ▸ h), rfl, exec_of_error h⟩
  | none => exact .inr ⟨rfl, exec_of_no_error h⟩

/-! ## Frames -/

/-- The decoder takes the frame of a command apart and nothing else. -/
theorem encode_of_decode {f : Frame} {i : Instr} (h : decode f = .ok i) : encode i = f := by
  cases f with
  | nil => cases h
  | cons op pl =>
    obtain ⟨rfl, hd⟩ | ⟨rfl, hd⟩ | ⟨rfl, hd⟩ | ⟨rfl, hd⟩ | ⟨-, hd⟩ := decode_cons op pl <;>
      cases hd.symm.trans h <;> rfl

/-- R182's first two checks are the decoder's rejections. -/
theorem firstCheck_of_reject {f : Frame} {r : Reject} (h : decode f = .error r) (calValid tv : Nat) :
    firstCheck calValid tv f = (rejectCode r).code := by
  cases f with
  | nil => cases h; rfl
  | cons op pl =>
    obtain ⟨-, hd⟩ | ⟨-, hd⟩ | ⟨-, hd⟩ | ⟨-, hd⟩ | ⟨hop, hd⟩ := decode_cons op pl <;> cases hd.symm.trans h
    exact if_pos (by omega)

theorem rejectCode_ne_ok (r : Reject) : rejectCode r ≠ .ok := by cases r <;> simp [rejectCode]

/-- A delivered frame fails with the code of the first check that applies, or it is a command that succeeds because none
does. -/
theorem deliver_outcome (f : Frame) (s : State) :
    (∃ e, e ≠ .ok ∧ firstCheck (s.flag .calValid) (s.flag .tv) f = e.code ∧ deliver f s = .next (s.fail e)) ∨
    (∃ i, encode i = f ∧ firstCheck (s.flag .calValid) (s.flag .tv) f = 0 ∧ deliver f s = .next (afterCommand i s)) := by
  obtain ⟨i, hd, he⟩ | ⟨r, hd, he⟩ := deliver_cases (f := f) (s := s) rfl
  · obtain rfl := encode_of_decode hd
    rw [← he]
    exact (exec_outcome i s).imp_right fun ⟨hc, hx⟩ => ⟨i, rfl, hc, hx⟩
  · exact .inl ⟨rejectCode r, rejectCode_ne_ok r, firstCheck_of_reject hd _ _, he⟩

/-! ## Steps -/

theorem step_deliver {s : State} {f : Frame} {rest : List HostAction} (h : s.pending = .deliver f :: rest) :
    step s = deliver f (s.takeAction rest).advance := by
  simp only [step, h, performAction]

theorem step_read {s : State} {n : Nat} {rest : List HostAction} (h : s.pending = .read n :: rest) :
    step s = readRegister n (s.takeAction rest) := by
  simp only [step, h, performAction]

theorem step_reset {s : State} {rest : List HostAction} (h : s.pending = .reset :: rest) :
    step s = .next (s.takeAction rest).powerOnReset := by
  simp only [step, h, performAction]

/-! ## What every success and every failure leave -/

@[simp] theorem afterCommand_code (i : Instr) (s : State) : (afterCommand i s).flag .code = 0 := by
  cases i <;> exact State.complete_flag_code _

@[simp] theorem afterCommand_errSeen (i : Instr) (s : State) :
    (afterCommand i s).flag .errSeen = s.flag .errSeen := by
  cases i <;> simp [afterCommand]

/-- R41, R45: no frame touches the host's side. -/
theorem deliver_sameHostSide {f : Frame} {s t : State} (h : deliver f s = .next t) : SameHostSide s t := by
  obtain ⟨e, -, -, he⟩ | ⟨i, -, -, he⟩ := deliver_outcome f s <;> cases he.symm.trans h
  · exact ⟨rfl, rfl, rfl⟩
  · cases i <;> exact ⟨rfl, rfl, rfl⟩

/-- Settles O37: a delivered frame ends as `deliver_outcome` says, and the code of a failure is not 0. -/
theorem firstCheckDecidesTheCode : Obligations.FirstCheckDecidesTheCode := by
  intro s f rest hp
  rw [step_deliver hp]
  obtain ⟨e, hok, hc, he⟩ | ⟨i, -, hc, he⟩ := deliver_outcome f (s.takeAction rest).advance
  · have hcode : e.code ≠ 0 := ResultCode.code_eq_zero.not.mpr hok
    exact ⟨_, he, by simp [← hc], by simp [e.code_le], by simp, by simp [hcode]⟩
  · exact ⟨_, he, by simp [← hc], by simp, by simp, by simp⟩

/-- R35, for one delivered frame. -/
theorem step_deliver_errSeen {s : State} {f : Frame} {rest : List HostAction} (hp : s.pending = .deliver f :: rest) :
    ∃ t, step s = .next t ∧ (t.flag .errSeen = 1 ↔ s.flag .errSeen = 1 ∨ t.flag .code ≠ 0) := by
  obtain ⟨t, ht, -, -, hfail, hok⟩ := firstCheckDecidesTheCode s f rest hp
  refine ⟨t, ht, ?_⟩
  by_cases hc : t.flag .code = 0
  · simp [hc, hok hc]
  · simp [hc, hfail hc]

/-- Settles O40: a frame keeps ERR_SEEN = 1, a read and an idle step keep STATUS whole, and what is left is the reset. -/
theorem errSeenIsSticky : Obligations.ErrSeenIsSticky := by
  refine ⟨fun s f rest => step_deliver_errSeen, fun s t ht h1 h0 => ?_⟩
  obtain ⟨-, ho⟩ | ⟨f, rest, hp, -⟩ | ⟨n, rest, -, ho⟩ | ⟨rest, hp, -⟩ := step_cases ht
  · cases ho
    omega
  · obtain ⟨u, hu, hiff⟩ := step_deliver_errSeen hp
    cases hu.symm.trans ht
    have := hiff.mpr (.inl h1)
    omega
  · obtain ⟨w, -, hw⟩ | ⟨-, hw⟩ := readRegister_cases ho <;> cases hw
    simp [h1] at h0
  · exact ⟨rest, hp⟩

/-- Settles O41: the step advances the position before the frame is delivered, and the frame leaves it there. -/
theorem positionCountsCommands : Obligations.PositionCountsCommands := by
  intro s t ht
  refine ⟨fun f rest hp => ?_, fun hdeliver hreset => ?_⟩
  · rw [step_deliver hp] at ht
    obtain ⟨hpos, hpend, -⟩ := deliver_sameHostSide ht
    exact ⟨hpos, hpend⟩
  · obtain ⟨-, ho⟩ | ⟨f, rest, hp, -⟩ | ⟨n, rest, -, ho⟩ | ⟨rest, hp, -⟩ := step_cases ht
    · cases ho
      rfl
    · exact absurd hp (hdeliver f rest)
    · obtain ⟨w, -, hw⟩ | ⟨-, hw⟩ := readRegister_cases ho <;> cases hw
      rfl
    · exact absurd hp (hreset rest)

/-- Settles O42: a failure writes STATUS only, and each success stores its own registers only. -/
theorem eachRegisterHasOneWriter : Obligations.EachRegisterHasOneWriter := by
  intro i s t h
  obtain ⟨e, he⟩ | ⟨pl, rfl, hlen, hcal, he⟩ | ⟨pl, rfl, -, -, he⟩ | ⟨pl, rfl, -, -, -, he⟩ | ⟨pl, rfl, -, -, -, he⟩ :=
    exec_cases h <;> cases he
  case inr.inl => simp [SameHostSide, hlen, hcal]
  all_goals simp [SameHostSide]

end Sys2Proof.Machine
end

section
/-! STATUS: where its fields lie and who writes them (10_state.md R33), and the edge cases that PZ and HCL report
(R36, R37). -/

namespace Sys2Proof.Machine

theorem flag_eq_div_mod (s : State) (f : StatusField) : s.flag f = s.status.toNat / 2 ^ f.lo % 2 ^ f.width := by
  rw [State.flag, readField, BitVec.extractLsb'_toNat, Nat.shiftRight_eq_div_pow]

/-- R33's layout. -/
theorem status_layout (s : State) :
    s.flag .calValid = s.status.toNat % 2 ∧ s.flag .tv = s.status.toNat / 2 % 2 ∧
    s.flag .pv = s.status.toNat / 4 % 2 ∧ s.flag .hv = s.status.toNat / 8 % 2 ∧
    s.flag .errSeen = s.status.toNat / 16 % 2 ∧ s.flag .pz = s.status.toNat / 32 % 2 ∧
    s.flag .hcl = s.status.toNat / 64 % 4 ∧ s.flag .code = s.status.toNat / 256 % 16 ∧
    s.flag .reserved = s.status.toNat / 4096 := by
  have hlt := s.status.isLt
  simp only [flag_eq_div_mod, StatusField.lo, StatusField.width]
  omega

/-- Settles O30: a failure writes CODE and ERR_SEEN, and each success writes the fields of its own row. -/
theorem statusLayoutAndWriters : Obligations.StatusLayoutAndWriters := by
  refine ⟨status_layout, fun i s t h => ?_, rfl⟩
  obtain ⟨e, hok, hc, he⟩ | ⟨hc, he⟩ := exec_outcome i s <;> cases he.symm.trans h
  · have hcode : e.code ≠ 0 := ResultCode.code_eq_zero.not.mpr hok
    simp [hc, hcode]
  · cases i <;> simp [hc, afterCommand]

/-! ## The edge cases -/

theorem compP_of_divisor_zero {c : Cal} {tf : Int} (raw : Int) (h : pressDivisor c tf = 0) :
    compP raw c tf = (0, 1) := if_pos h

theorem compP_of_divisor_ne_zero {c : Cal} {tf : Int} (raw : Int) (h : pressDivisor c tf ≠ 0) :
    compP raw c tf = (pressCorrect c (floorDiv (pressNumerator raw c tf) (pressDivisor c tf)), 0) := if_neg h

theorem compH_of_lt_zero {raw : Int} {c : Cal} {tf : Int} (h : humUnclamped raw c tf < 0) :
    compH raw c tf = (0, 1) := by
  simp only [compH, humClampCode, clamp_of_lt_lo _ h, if_pos h]
  rfl

theorem compH_of_gt_max {raw : Int} {c : Cal} {tf : Int} (h : humUnclamped raw c tf > 419430400) :
    compH raw c tf = (102400, 2) := by
  have h0 : 0 ≤ humUnclamped raw c tf := by omega
  simp only [compH, humClampCode, clamp_of_hi_lt h0 h, if_neg h0.not_gt, if_pos h]
  rfl

theorem compH_of_mem {raw : Int} {c : Cal} {tf : Int} (h0 : 0 ≤ humUnclamped raw c tf)
    (h1 : humUnclamped raw c tf ≤ 419430400) : compH raw c tf = (asr (humUnclamped raw c tf) 12, 0) := by
  simp only [compH, humClampCode, clamp_of_mem h0 h1, if_neg h0.not_gt, if_neg h1.not_gt]

theorem commandError_compt {pl : Payload} {s : State} :
    commandError (.compt pl) s = none ↔ pl.length = 3 ∧ s.flag .calValid = 1 := by
  rw [commandError, Option.or_eq_none_iff, lengthError_none, noCalError_none]

theorem commandError_compp {pl : Payload} {s : State} :
    commandError (.compp pl) s = none ↔ (pl.length = 3 ∧ s.flag .calValid = 1) ∧ s.flag .tv = 1 := by
  rw [commandError, Option.or_eq_none_iff, Option.or_eq_none_iff, lengthError_none, noCalError_none, noTfineError_none]

theorem commandError_comph {pl : Payload} {s : State} :
    commandError (.comph pl) s = none ↔ (pl.length = 2 ∧ s.flag .calValid = 1) ∧ s.flag .tv = 1 := by
  rw [commandError, Option.or_eq_none_iff, Option.or_eq_none_iff, lengthError_none, noCalError_none, noTfineError_none]

theorem afterCompp_press (pl : Payload) (s : State) :
    (afterCompp pl s).press = BitVec.ofInt 128 (compP (rawTp pl) s.cal s.tfine.toInt).1 := rfl

theorem afterComph_hum (pl : Payload) (s : State) :
    (afterComph pl s).hum = BitVec.ofInt 32 (compH (rawH pl) s.cal s.tfine.toInt).1 := rfl

/-- Settles O27: the three commands succeed, and PZ and HCL are the formulas' by the cases of the divisor and of the
clamp. -/
theorem edgeCasesAreFlagsNotErrors : Obligations.EdgeCasesAreFlagsNotErrors := by
  intro s hcal
  refine ⟨fun pl hlen htv => ?compp, fun pl hlen htv => ?comph, fun pl hlen => ?compt⟩
  case compp =>
    refine ⟨afterCompp pl s, exec_of_no_error (commandError_compp.mpr ⟨⟨hlen, hcal⟩, htv⟩),
      afterCommand_code (.compp pl) s, afterCommand_errSeen (.compp pl) s, fun hzero => ?_, fun hne => ?_⟩
    · rw [afterCompp_press, afterCompp_pz, compP_of_divisor_zero _ hzero]
      exact ⟨rfl, rfl⟩
    · rw [afterCompp_pz, compP_of_divisor_ne_zero _ hne]
  case comph =>
    refine ⟨afterComph pl s, exec_of_no_error (commandError_comph.mpr ⟨⟨hlen, hcal⟩, htv⟩),
      afterCommand_code (.comph pl) s, afterCommand_errSeen (.comph pl) s, fun hlow => ?_, fun hhigh => ?_,
      fun h0 h1 => ?_⟩
    · rw [afterComph_hum, afterComph_hcl, compH_of_lt_zero hlow]
      exact ⟨rfl, rfl⟩
    · rw [afterComph_hum, afterComph_hcl, compH_of_gt_max hhigh]
      exact ⟨rfl, rfl⟩
    · rw [afterComph_hcl, compH_of_mem h0 h1]
  case compt =>
    refine ⟨afterCompt pl s, exec_of_no_error (commandError_compt.mpr ⟨hlen, hcal⟩), ?_⟩
    simp

end Sys2Proof.Machine
end

section
/-! The register numbers, the host's reads and reset (10_state.md R39, R40, R44). -/

namespace Sys2Proof.Machine

theorem validWhen_of_set {s : State} {f : StatusField} (h : s.flag f = 1) (w : Option RegWord) :
    s.validWhen f w = w := if_pos h

theorem validWhen_of_clear {s : State} {f : StatusField} (h : s.flag f = 0) (w : Option RegWord) :
    s.validWhen f w = none := if_neg (by omega)

/-- The CAL fields have the numbers from 0x10 on, in R22's order. -/
theorem register_cal (s : State) (k : Nat) : s.register (0x10 + k) = s.validWhen .calValid (s.cal.word k) := by
  rw [Nat.add_comm]
  rfl

theorem register_unassigned (s : State) {n : Nat} (h : (0x08 ≤ n ∧ n ≤ 0x0F) ∨ 0x22 ≤ n) : s.register n = none := by
  obtain ⟨hlo, hhi⟩ | h := h
  · interval_cases n <;> rfl
  · obtain ⟨k, rfl⟩ := Nat.exists_eq_add_of_le h
    have hn : 0x22 + k = 0x10 + (k + 18) := by omega
    rw [hn, register_cal]
    exact ite_self none

/-- With the valid bits clear, STATUS alone holds a value. -/
theorem register_eq_none {s : State} (hflags : ∀ f, s.flag f = 0) {n : Nat} (hn : n ≠ 0) : s.register n = none := by
  unfold State.register
  split
  case h_1 => contradiction
  case h_9 =>
    split_ifs
    · exact validWhen_of_clear (hflags _) _
    · rfl
  all_goals exact validWhen_of_clear (hflags _) _

/-- Settles O31: each number is its register behind its valid bit, and every other number is unassigned. -/
theorem registerNumbers : Obligations.RegisterNumbers := by
  intro s
  refine ⟨rfl, fun h => ?_, fun h => ?_, fun h => ?_, fun h => ?_, fun h => ?_, fun h => ?_, fun h => ?_,
    fun h n hn => ?_, fun n => register_unassigned s⟩
  · exact ⟨validWhen_of_set h _, validWhen_of_set h _, validWhen_of_set h _⟩
  · exact ⟨validWhen_of_clear h _, validWhen_of_clear h _, validWhen_of_clear h _⟩
  · exact ⟨validWhen_of_set h _, validWhen_of_set h _⟩
  · exact ⟨validWhen_of_clear h _, validWhen_of_clear h _⟩
  · exact ⟨validWhen_of_set h _, validWhen_of_set h _⟩
  · exact ⟨validWhen_of_clear h _, validWhen_of_clear h _⟩
  · simp only [register_cal, validWhen_of_set h]
    rfl
  · obtain ⟨k, rfl⟩ := Nat.exists_eq_add_of_le hn
    rw [register_cal, validWhen_of_clear h]

theorem register_takeAction (s : State) (rest : List HostAction) (n : Nat) :
    (s.takeAction rest).register n = s.register n := rfl

/-- Settles O32: taking the action off the list leaves the register, and the read port answers with it or faults. -/
theorem hostReadsHaveNoSideEffect : Obligations.HostReadsHaveNoSideEffect := by
  intro s n rest hp
  rw [step_read hp, readRegister, register_takeAction]
  refine ⟨fun w hw => ?_, fun hnone => ?_⟩
  · rw [hw]
    rfl
  · rw [hnone]

/-- Settles O33: at reset every field of STATUS is 0, the valid bits among them. -/
theorem resetLeavesNoValue : Obligations.ResetLeavesNoValue := by
  refine ⟨⟨rfl, fun n => register_eq_none State.reset_flag⟩, fun s rest hp => ?_⟩
  exact ⟨_, step_reset hp, rfl, State.powerOnReset_flag _, fun n => register_eq_none (State.powerOnReset_flag _)⟩

end Sys2Proof.Machine
end

section
/-! How large the results can get for a calibration set within R22's ranges: the registers of 10_state.md R26 to R29 hold
them whole. The powers of two are coarser than R170's bounds. -/

namespace Sys2Proof.Machine

/-! ## The decoded calibration set -/

theorem sext_8_range (v : Nat) : -128 ≤ sext 8 v ∧ sext 8 v ≤ 127 := by
  simp only [sext, bits]
  omega

theorem sext_12_range (v : Nat) : -2048 ≤ sext 12 v ∧ sext 12 v ≤ 2047 := by
  simp only [sext, bits]
  omega

theorem sext_16_range (v : Nat) : -32768 ≤ sext 16 v ∧ sext 16 v ≤ 32767 := by
  simp only [sext, bits]
  omega

theorem zext_8_range (v : Nat) : 0 ≤ zext 8 v ∧ zext 8 v ≤ 255 := by
  simp only [zext, bits]
  omega

theorem word1_range (pl : Payload) (k : Nat) : 0 ≤ word1 pl k ∧ word1 pl k ≤ 65535 := by
  have h0 := byteAt_lt pl k
  have h1 := byteAt_lt pl (k + 1)
  simp only [word1, block1, le16]
  omega

/-- R120: whatever the bytes, the decoded set lies in R22's ranges. -/
theorem decodeCal_inRange (pl : Payload) : (decodeCal pl).InRange :=
  ⟨word1_range pl 0, sext_16_range _, sext_16_range _,
    word1_range pl 6, sext_16_range _, sext_16_range _,
    sext_16_range _, sext_16_range _, sext_16_range _,
    sext_16_range _, sext_16_range _, sext_16_range _,
    zext_8_range _, sext_16_range _, zext_8_range _, sext_12_range _, sext_12_range _, sext_8_range _⟩

/-! ## Magnitudes as powers of two -/

theorem abs_mul_le_two_pow {x y : Int} {a b : Nat} (hx : |x| ≤ 2 ^ a) (hy : |y| ≤ 2 ^ b) : |x * y| ≤ 2 ^ (a + b) := by
  rw [abs_mul, pow_add]
  exact mul_le_mul hx hy (abs_nonneg y) (by positivity)

theorem abs_add_le_two_pow {x y : Int} {a : Nat} (hx : |x| ≤ 2 ^ a) (hy : |y| ≤ 2 ^ a) : |x + y| ≤ 2 ^ (a + 1) := by
  rw [pow_succ]
  linarith [abs_add_le x y]

theorem abs_sub_le_two_pow {x y : Int} {a : Nat} (hx : |x| ≤ 2 ^ a) (hy : |y| ≤ 2 ^ a) : |x - y| ≤ 2 ^ (a + 1) := by
  rw [pow_succ]
  linarith [abs_sub x y]

theorem abs_asr_le_two_pow {x : Int} {a k : Nat} (hx : |x| ≤ 2 ^ (a + k)) : |asr x k| ≤ 2 ^ a := by
  have hp : (0 : Int) < 2 ^ k := by positivity
  rw [pow_add, abs_le, ← neg_mul] at hx
  rw [asr_eq_div, abs_le]
  exact ⟨(Int.le_ediv_iff_mul_le hp).mpr hx.1, Int.ediv_le_of_le_mul hp hx.2⟩

theorem abs_shl_le_two_pow {x : Int} {a : Nat} (k : Nat) (hx : |x| ≤ 2 ^ a) : |shl x k| ≤ 2 ^ (a + k) :=
  abs_mul_le_two_pow hx (abs_of_pos (by positivity)).le

theorem abs_floorDiv_le {x d m : Int} (hd : d ≠ 0) (hx : |x| ≤ m) : |floorDiv x d| ≤ m :=
  abs_le.mpr (floorDiv_bounds hd (abs_le.mp hx))

/-! ## The results' magnitudes, far inside their registers -/

theorem tFine_le {raw : Int} {c : Cal} (hc : c.InRange) (hraw : 0 ≤ raw ∧ raw < 2 ^ 20) : |tFine raw c| ≤ 2 ^ 22 := by
  obtain ⟨ht1, ht2, ht3, -⟩ := hc
  have h3 := asr_eq_div raw 3
  have h4 := asr_eq_div raw 4
  have hvar1 : |tempVar1 raw c| ≤ 2 ^ 21 :=
    abs_asr_le_two_pow (a := 21) (abs_mul_le_two_pow (a := 17) (b := 15)
      (abs_le.mpr (by rw [shl_eq_mul]; omega)) (abs_le.mpr (by omega)))
  have hd : |asr raw 4 - c.t1| ≤ 2 ^ 16 := abs_le.mpr (by omega)
  have hvar2 : |tempVar2 raw c| ≤ 2 ^ 21 :=
    abs_asr_le_two_pow (a := 21) (abs_mul_le_two_pow (a := 20) (b := 15)
      (abs_asr_le_two_pow (a := 20) (abs_mul_le_two_pow (a := 16) (b := 16) hd hd)) (abs_le.mpr (by omega)))
  exact abs_add_le_two_pow hvar1 hvar2

theorem abs_le_of_signed16 {x : Int} (hx : -32768 ≤ x ∧ x ≤ 32767) : |x| ≤ 2 ^ 15 := abs_le.mpr (by omega)

theorem pressOffset_le {tf : Int} {c : Cal} (hc : c.InRange) (htf : |tf| ≤ 2 ^ 22) : |pressOffset c tf| ≤ 2 ^ 63 := by
  obtain ⟨-, -, -, -, -, -, hp4, hp5, hp6, -⟩ := hc
  obtain ⟨htf_lo, htf_hi⟩ := abs_le.mp htf
  have hv1 : |tf - 128000| ≤ 2 ^ 23 := abs_le.mpr (by omega)
  have h6 : |(tf - 128000) * (tf - 128000) * c.p6| ≤ 2 ^ 61 :=
    abs_mul_le_two_pow (a := 46) (b := 15) (abs_mul_le_two_pow (a := 23) (b := 23) hv1 hv1) (abs_le_of_signed16 hp6)
  have h5 : |shl ((tf - 128000) * c.p5) 17| ≤ 2 ^ 55 :=
    abs_shl_le_two_pow (a := 38) 17 (abs_mul_le_two_pow (a := 23) (b := 15) hv1 (abs_le_of_signed16 hp5))
  have h4 : |shl c.p4 35| ≤ 2 ^ 50 := abs_shl_le_two_pow (a := 15) 35 (abs_le_of_signed16 hp4)
  exact abs_add_le_two_pow (abs_add_le_two_pow h6 (h5.trans (by norm_num))) (h4.trans (by norm_num))

theorem pressNumerator_le {raw tf : Int} {c : Cal} (hc : c.InRange) (hraw : 0 ≤ raw ∧ raw < 2 ^ 20)
    (htf : |tf| ≤ 2 ^ 22) : |pressNumerator raw c tf| ≤ 2 ^ 76 := by
  have hsample : |shl (1048576 - raw) 31| ≤ 2 ^ 51 := abs_shl_le_two_pow (a := 20) 31 (abs_le.mpr (by omega))
  have hdiff := abs_sub_le_two_pow (hsample.trans (by norm_num)) (pressOffset_le hc htf)
  exact abs_mul_le_two_pow (a := 64) (b := 12) hdiff (by norm_num)

theorem pressCorrect_le {c : Cal} {p : Int} (hc : c.InRange) (hp : |p| ≤ 2 ^ 76) : |pressCorrect c p| ≤ 2 ^ 111 := by
  obtain ⟨-, -, -, -, -, -, -, -, -, hp7, hp8, hp9, -⟩ := hc
  have hq : |asr p 13| ≤ 2 ^ 63 := abs_asr_le_two_pow (a := 63) hp
  have h9 : |asr (c.p9 * asr p 13 * asr p 13) 25| ≤ 2 ^ 116 :=
    abs_asr_le_two_pow (a := 116) (abs_mul_le_two_pow (a := 78) (b := 63)
      (abs_mul_le_two_pow (a := 15) (b := 63) (abs_le_of_signed16 hp9) hq) hq)
  have h8 : |asr (c.p8 * p) 19| ≤ 2 ^ 72 :=
    abs_asr_le_two_pow (a := 72) (abs_mul_le_two_pow (a := 15) (b := 76) (abs_le_of_signed16 hp8) hp)
  have hsum : |asr (p + asr (c.p9 * asr p 13 * asr p 13) 25 + asr (c.p8 * p) 19) 8| ≤ 2 ^ 110 :=
    abs_asr_le_two_pow (a := 110)
      (abs_add_le_two_pow (abs_add_le_two_pow (hp.trans (by norm_num)) h9) (h8.trans (by norm_num)))
  have h7 : |shl c.p7 4| ≤ 2 ^ 19 := abs_shl_le_two_pow (a := 15) 4 (abs_le_of_signed16 hp7)
  exact abs_add_le_two_pow hsum (h7.trans (by norm_num))

theorem compP_le {raw tf : Int} {c : Cal} (hc : c.InRange) (hraw : 0 ≤ raw ∧ raw < 2 ^ 20) (htf : |tf| ≤ 2 ^ 22) :
    |(compP raw c tf).1| ≤ 2 ^ 111 := by
  by_cases hd : pressDivisor c tf = 0
  · rw [compP_of_divisor_zero raw hd]
    norm_num
  · rw [compP_of_divisor_ne_zero raw hd]
    exact pressCorrect_le hc (abs_floorDiv_le hd (pressNumerator_le hc hraw htf))

/-- R158: HUM lies in 0 to 102400. -/
theorem compH_range (raw : Int) (c : Cal) (tf : Int) : 0 ≤ (compH raw c tf).1 ∧ (compH raw c tf).1 ≤ 102400 := by
  have h := asr_bounds 12 (clamp_bounds (humUnclamped raw c tf) (lo := 0) (hi := 419430400) (by norm_num))
  rw [asr_eq_div, asr_eq_div 419430400] at h
  exact h

/-- The integer in a register of `n + 1` bits, if it fits. -/
theorem toInt_ofInt_of_abs_le {n a : Nat} {x : Int} (hx : |x| ≤ 2 ^ a) (ha : a < n) :
    (BitVec.ofInt (n + 1) x).toInt = x := by
  have hlt : |x| < 2 ^ n := hx.trans_lt (pow_lt_pow_right₀ one_lt_two ha)
  obtain ⟨hlo, hhi⟩ := abs_lt.mp hlt
  exact BitVec.toInt_ofInt_eq_self n.succ_pos hlo.le hhi

end Sys2Proof.Machine
end

section
/-! The invariant of every reachable state (10_state.md R43): what it gives of the result registers, that it holds at reset,
that every step keeps it, and so every run. -/

namespace Sys2Proof.Machine

theorem sample20_range (r : BitVec 20) : 0 ≤ (r.toNat : Int) ∧ (r.toNat : Int) < 2 ^ 20 := by
  have := r.isLt
  omega

namespace State.Inv

variable {s : State}

/-- While TV = 1, TFINE is the formula's integer, and small. -/
theorem tfine_exact (h : s.Inv) (htv : s.flag .tv = 1) :
    s.tfine.toInt = tFine s.rawT.toNat s.cal ∧ |s.tfine.toInt| ≤ 2 ^ 22 := by
  have hle := tFine_le (h.calInRange (h.tvNeedsCal htv)) (sample20_range s.rawT)
  have hexact : s.tfine.toInt = tFine s.rawT.toNat s.cal := by
    rw [(h.temperature htv).1]
    exact toInt_ofInt_of_abs_le (n := 31) hle (by norm_num)
  exact ⟨hexact, hexact ▸ hle⟩

/-- While PV = 1, PRESS is the formula's integer for the current TFINE. -/
theorem press_exact (h : s.Inv) (hpv : s.flag .pv = 1) :
    s.press.toInt = (compP s.rawP.toNat s.cal s.tfine.toInt).1 := by
  have htv := h.pvNeedsTv hpv
  rw [(h.pressure hpv).1]
  exact toInt_ofInt_of_abs_le (n := 127)
    (compP_le (h.calInRange (h.tvNeedsCal htv)) (sample20_range s.rawP) (h.tfine_exact htv).2) (by norm_num)

/-- While HV = 1, HUM is the formula's integer for the current TFINE. -/
theorem hum_exact (h : s.Inv) (hhv : s.flag .hv = 1) :
    (s.hum.toNat : Int) = (compH s.rawH.toNat s.cal s.tfine.toInt).1 := by
  have := compH_range s.rawH.toNat s.cal s.tfine.toInt
  rw [(h.humidity hhv).1, BitVec.toNat_ofInt]
  omega

/-- The invariant does not speak of the host's side. -/
theorem of_hostSide (h : s.Inv) (position : Nat) (pending : List HostAction) (answers : List RegWord) :
    State.Inv { s with position := position, pending := pending, answers := answers } :=
  { h with }

end State.Inv

/-! ## It holds at reset and every step keeps it -/

theorem reset_inv : State.reset.Inv := by constructor <;> simp

section
variable {s : State}

theorem fail_keeps_inv (h : s.Inv) (e : ResultCode) : (s.fail e).Inv where
  calInRange := by simpa using h.calInRange
  tvNeedsCal := by simpa using h.tvNeedsCal
  pvNeedsTv := by simpa using h.pvNeedsTv
  hvNeedsTv := by simpa using h.hvNeedsTv
  temperature := by simpa using h.temperature
  pressure := by simpa using h.pressure
  humidity := by simpa using h.humidity
  pzCleared := by simpa using h.pzCleared
  hclCleared := by simpa using h.hclCleared
  reservedZero := by simpa using h.reservedZero
  codeBound := by simpa using e.code_le

/-- LOADCAL succeeds only with CAL_VALID = 0, when no result is valid that the new set could contradict. -/
theorem afterLoadcal_keeps_inv (h : s.Inv) (hcal : s.flag .calValid = 0) (pl : Payload) : (afterLoadcal pl s).Inv := by
  have htv : s.flag .tv ≠ 1 := fun htv => by simp [h.tvNeedsCal htv] at hcal
  have hpv : s.flag .pv ≠ 1 := fun hpv => htv (h.pvNeedsTv hpv)
  have hhv : s.flag .hv ≠ 1 := fun hhv => htv (h.hvNeedsTv hhv)
  constructor
  case calInRange => exact fun _ => decodeCal_inRange pl
  case pzCleared => simpa using h.pzCleared
  case hclCleared => simpa using h.hclCleared
  all_goals simp [htv, hpv, hhv, h.reservedZero]

/-- COMPT clears PV and HV, so no result of the old TFINE stays valid (R31, R32). -/
theorem afterCompt_keeps_inv (h : s.Inv) (hcal : s.flag .calValid = 1) (pl : Payload) : (afterCompt pl s).Inv := by
  constructor
  case calInRange => exact fun _ => h.calInRange hcal
  all_goals simp [hcal, h.reservedZero]

theorem afterCompp_keeps_inv (h : s.Inv) (htv : s.flag .tv = 1) (pl : Payload) : (afterCompp pl s).Inv := by
  have hcal := h.tvNeedsCal htv
  constructor
  case pressure =>
    refine fun _ => ⟨by simp, ?_⟩
    rw [afterCompp_pz]
    simp
  case calInRange => exact fun _ => h.calInRange hcal
  case temperature => exact fun _ => h.temperature htv
  case humidity => simpa using h.humidity
  case hclCleared => simpa using h.hclCleared
  all_goals simp [htv, hcal, h.reservedZero]

theorem afterComph_keeps_inv (h : s.Inv) (htv : s.flag .tv = 1) (pl : Payload) : (afterComph pl s).Inv := by
  have hcal := h.tvNeedsCal htv
  constructor
  case humidity =>
    refine fun _ => ⟨by simp, ?_⟩
    rw [afterComph_hcl]
    simp
  case calInRange => exact fun _ => h.calInRange hcal
  case temperature => exact fun _ => h.temperature htv
  case pressure => simpa using h.pressure
  case pzCleared => simpa using h.pzCleared
  all_goals simp [htv, hcal, h.reservedZero]

theorem exec_keeps_inv {i : Instr} {t : State} (h : s.Inv) (ht : exec i s = .next t) : t.Inv := by
  obtain ⟨e, he⟩ | ⟨pl, -, -, hcal, he⟩ | ⟨pl, -, -, hcal, he⟩ | ⟨pl, -, -, -, htv, he⟩ | ⟨pl, -, -, -, htv, he⟩ :=
    exec_cases ht <;> cases he
  · exact fail_keeps_inv h e
  · exact afterLoadcal_keeps_inv h hcal pl
  · exact afterCompt_keeps_inv h hcal pl
  · exact afterCompp_keeps_inv h htv pl
  · exact afterComph_keeps_inv h htv pl

theorem deliver_keeps_inv {f : Frame} {t : State} (h : s.Inv) (ht : deliver f s = .next t) : t.Inv := by
  obtain ⟨i, -, he⟩ | ⟨r, -, he⟩ := deliver_cases ht
  · exact exec_keeps_inv h he
  · cases he
    exact fail_keeps_inv h _

theorem step_keeps_inv {t : State} (h : s.Inv) (ht : step s = .next t) : t.Inv := by
  obtain ⟨-, ho⟩ | ⟨f, rest, -, ho⟩ | ⟨n, rest, -, ho⟩ | ⟨rest, -, ho⟩ := step_cases ht
  · cases ho
    exact h
  · exact deliver_keeps_inv (h.of_hostSide _ _ _) ho
  · obtain ⟨w, -, hw⟩ | ⟨-, hw⟩ := readRegister_cases ho <;> cases hw
    exact h.of_hostSide _ _ _
  · cases ho
    exact reset_inv.of_hostSide _ _ _

end

/-! ## Runs -/

section
variable {M : Host.Core} {k : Nat} {s t : M.State}

/-- A run of `k + 1` steps is one step and then a run of `k`. -/
theorem run_succ (h : M.run (k + 1) s = .next t) : ∃ u, M.step s = .next u ∧ M.run k u = .next t := by
  rw [Host.Core.run] at h
  split at h
  case h_1 u hu => exact ⟨u, hu, h⟩
  all_goals cases h

/-- What every step keeps, every run keeps. -/
theorem run_induction {P : M.State → Prop} (hstep : ∀ s t, P s → M.step s = .next t → P t) (hs : P s)
    (hrun : M.run k s = .next t) : P t := by
  induction k generalizing s with
  | zero =>
    cases hrun
    exact hs
  | succ k ih =>
    obtain ⟨u, hu, hrest⟩ := run_succ hrun
    exact ih (hstep s u hs hu) hrest

end

theorem resetWith_inv (actions : List HostAction) : (State.resetWith actions).Inv := reset_inv.of_hostSide _ _ _

/-- Settles O47: the invariant holds after reset and along the run, and in it PRESS and HUM are exact. -/
theorem reachableStatesAreCoherent : Obligations.ReachableStatesAreCoherent := by
  intro actions k s hrun
  have h : s.Inv :=
    run_induction (M := Sys2Proof.core) (P := State.Inv) (fun _ _ => step_keeps_inv) (resetWith_inv actions) hrun
  exact ⟨h.tvNeedsCal, h.pvNeedsTv, h.hvNeedsTv, h.press_exact, h.hum_exact, h.pzCleared, h.hclCleared,
    h.reservedZero, h.codeBound⟩

end Sys2Proof.Machine
end

section
/-! The wire framing of the host's transactions with the sensor: bit 7 of the address, the data or dummy bytes after it,
and the payload of a response (20_memory.md R56 to R60). -/

namespace Sys2Proof.Machine

/-! ## Bit 7 of an address as arithmetic -/

theorem toNat_clearBit7 (a : Byte) : (a &&& 0x7F#8).toNat = a.toNat % 128 := by
  rw [BitVec.toNat_and]
  exact Nat.and_two_pow_sub_one_eq_mod a.toNat 7

/-- Setting bit 7 does not depend on what the bit was: the two masks together cover every bit. -/
theorem setBit7_clearBit7 (a : Byte) : (a &&& 0x7F#8) ||| 0x80#8 = a ||| 0x80#8 := by
  ext i hi
  have hmasks : (0x7F#8 ||| 0x80#8)[i] = true := BitVec.getElem_allOnes i hi
  rw [BitVec.getElem_or, BitVec.getElem_and, Bool.or_and_distrib_right, ← BitVec.getElem_or (x := 0x7F#8), hmasks,
    Bool.and_true, BitVec.getElem_or]

/-- Where bit 7 is clear, setting it adds 128: the two masks have no bit in common. -/
theorem toNat_setBit7 (a : Byte) : (a ||| 0x80#8).toNat = 128 + a.toNat % 128 := by
  have hdisjoint : (a &&& 0x7F#8) &&& 0x80#8 = 0#8 := (BitVec.and_assoc ..).trans BitVec.and_zero
  have hlow : a.toNat % 128 < 128 := Nat.mod_lt _ (by decide)
  rw [← setBit7_clearBit7, ← BitVec.add_eq_or_of_and_eq_zero _ _ hdisjoint, BitVec.toNat_add, toNat_clearBit7,
    Nat.add_comm]
  exact Nat.mod_eq_of_lt (Nat.add_lt_add_left hlow 128)

/-! ## The frames -/

theorem wire_write (register : Byte) (data : List Byte) :
    (Transfer.write register data).wire = (register &&& 0x7F#8) :: data := rfl

theorem wire_read (register : Byte) (count : Nat) :
    (Transfer.read register count).wire = (register ||| 0x80#8) :: List.replicate count 0x00 := rfl

theorem responsePayload_cons (echo : Byte) (received : List Byte) :
    responsePayload (echo :: received) = received := rfl

/-- Settles O11: each frame by its own equation, with its address byte's value. -/
theorem wireFraming : Obligations.WireFraming :=
  ⟨fun a ds => ⟨_, wire_write a ds, toNat_clearBit7 a⟩, fun a n => ⟨_, wire_read a n, toNat_setBit7 a⟩,
    responsePayload_cons⟩

end Sys2Proof.Machine
end

section
/-! Frames that are no valid command: the empty frame, an illegal opcode, a payload of the wrong length; and the frames
of R93 as the encoding of their commands (30_encoding.md R85 to R93). -/

namespace Sys2Proof.Machine

/-! ## A failure's frame -/

/-- R185: what `fail` writes is CODE and ERR_SEEN. -/
theorem fail_failsWith (s : State) (e : ResultCode) : FailsWith e.code s (.next (s.fail e)) :=
  ⟨_, rfl, State.fail_flag_code s e, State.fail_flag_errSeen s e, fun f hf => by
    obtain ⟨hcode, herr⟩ : f ≠ .code ∧ f ≠ .errSeen := by simpa using hf
    exact State.fail_flag_ne s e hcode herr,
    rfl, ⟨rfl, rfl, rfl⟩, ⟨rfl, rfl⟩, ⟨rfl, rfl⟩, ⟨rfl, rfl, rfl⟩⟩

/-- A delivered frame that a check of R182 stops fails with that check's code. -/
theorem step_failsWith_firstCheck {s : State} {f : Frame} {rest : List HostAction} {code : Nat}
    (hp : s.pending = .deliver f :: rest) (hcheck : firstCheck (s.flag .calValid) (s.flag .tv) f = code)
    (hcode : code ≠ 0) : FailsWith code { s with pending := rest, position := s.position + 1 } (step s) := by
  rw [step_deliver hp]
  obtain ⟨e, -, hc, he⟩ | ⟨-, -, hc, -⟩ := deliver_outcome f (s.takeAction rest).advance
  · obtain rfl : e.code = code := hc.symm.trans hcheck
    exact he ▸ fail_failsWith _ e
  · exact absurd (hcheck.symm.trans hc) hcode

/-! ## The first check by the frame's shape -/

section
variable (calValid tv : Nat) {op : Byte} {pl : Payload}

theorem firstCheck_illegal (h : op.toNat = 0 ∨ 5 ≤ op.toNat) : firstCheck calValid tv (op :: pl) = 1 :=
  if_pos (by omega)

theorem firstCheck_short (hop : 1 ≤ op.toNat ∧ op.toNat ≤ 4) (h : pl.length < requiredLength op.toNat) :
    firstCheck calValid tv (op :: pl) = 2 := by
  simp [firstCheck, hop, h]

theorem firstCheck_long (hop : 1 ≤ op.toNat ∧ op.toNat ≤ 4) (h : pl.length > requiredLength op.toNat) :
    firstCheck calValid tv (op :: pl) = 3 := by
  simp [firstCheck, hop, h, h.le]

end

/-! ## Legal opcodes and the required length -/

/-- R85: a legal opcode makes the frame one of the four commands. -/
theorem exists_decode_of_legal {op : Byte} (hop : 1 ≤ op.toNat ∧ op.toNat ≤ 4) (pl : Payload) :
    ∃ i, decode (op :: pl) = .ok i := by
  obtain ⟨-, hd⟩ | ⟨-, hd⟩ | ⟨-, hd⟩ | ⟨-, hd⟩ | ⟨hbad, -⟩ := decode_cons op pl
  case inr.inr.inr.inr => omega
  all_goals exact ⟨_, hd⟩

/-- R87: the decoded command is well formed exactly when the payload has the length its opcode requires (R182). -/
theorem wellFormed_decoded_iff {op : Byte} {pl : Payload} {i : Instr} (h : decode (op :: pl) = .ok i) :
    i.wellFormed = true ↔ pl.length = requiredLength op.toNat := by
  have he := encode_of_decode h
  rw [Laws.wellFormed_iff]
  cases i <;> cases he <;> rfl

/-- Settles O35: the first check of R182 is the opcode's, or that of the empty frame. -/
theorem nonCommandsFail : Obligations.NonCommandsFail := fun _ _ =>
  ⟨fun _ _ hp hop => step_failsWith_firstCheck hp (firstCheck_illegal _ _ hop) (by decide),
    fun hp => step_failsWith_firstCheck hp rfl (by decide)⟩

/-- Settles O36: past a legal opcode the first check is the length's, and the decoded command has it too. -/
theorem wrongLengthFails : Obligations.WrongLengthFails := by
  intro s rest op pl hp h1 h4
  refine ⟨fun h => step_failsWith_firstCheck hp (firstCheck_short _ _ ⟨h1, h4⟩ h) (by decide),
    fun h => step_failsWith_firstCheck hp (firstCheck_long _ _ ⟨h1, h4⟩ h) (by decide), fun h => ?_, ?_⟩
  · obtain ⟨i, hd⟩ := exists_decode_of_legal ⟨h1, h4⟩ pl
    exact ⟨i, hd, (wellFormed_decoded_iff hd).mpr h⟩
  · rintro ⟨i, hd, hw⟩
    exact (wellFormed_decoded_iff hd).mp hw

/-! ## The worked encoding -/

/-- The decoder gives back every command from its frame. -/
theorem decode_encode (i : Instr) : decode (encode i) = .ok i := by cases i <;> rfl

/-- R92: the payload that `COMPT.RAW` gives the source's golden raw temperature. -/
theorem samplePayload_golden : samplePayload 519888 = [0x7E, 0xED, 0x00] := by decide

/-- Settles O4: each written-out frame is the encoding of its command, which `decode_encode` gives back. -/
theorem workedEncodingDecodes : Obligations.WorkedEncodingDecodes :=
  ⟨by rw [AsmLine.frames, samplePayload_golden], rfl, decode_encode (.compt _), by decide, decode_encode (.compp _),
    decode_encode (.comph _), decode_encode (.loadcal _)⟩

end Sys2Proof.Machine
end

section
/-! The calibration codec (40_calibration.md R101 to R121): encoding keeps of each coefficient its pattern, sign
extension and reduction modulo 2^N are inverse to each other, and so are decoding and encoding. -/

namespace Sys2Proof.Machine

/-! ## Sign extension and reduction modulo 2^N -/

/-- The pattern of a sign-extended number is the one it was extended from. -/
theorem sext_emod {n v : Nat} (hn : 0 < n) (hv : v < 2 ^ n) : sext n v % 2 ^ n = v := by
  have hself : (v : Int) % 2 ^ n = v := Int.emod_eq_of_lt v.cast_nonneg (by exact_mod_cast hv)
  rw [sext_eq hn hv]
  split
  · exact hself
  · rw [Int.sub_emod_right, hself]

/-- Sign extension gives back the number within the signed range whose pattern it reads: two numbers of that range that
agree modulo 2^N are the same. -/
theorem sext_of_emod {n p : Nat} {v : Int} (hn : 0 < n) (hp : (p : Int) = v % 2 ^ n)
    (hv : -2 ^ (n - 1) ≤ v ∧ v < 2 ^ (n - 1)) : sext n p = v := by
  have hlt : p < 2 ^ n := by exact_mod_cast hp ▸ Int.emod_lt_of_pos v (by positivity)
  have hmod : v ≡ sext n p [ZMOD 2 ^ n] := hp.symm.trans (sext_emod hn hlt).symm
  have hs := sext_bounds p hn hlt
  have htwo : (2 : Int) ^ n = 2 ^ (n - 1) + 2 ^ (n - 1) := by rw [← two_mul, mul_pow_sub_one hn.ne']
  exact sub_eq_zero.mp (Int.eq_zero_of_abs_lt_dvd hmod.dvd (abs_lt.mpr (by omega)))

/-! ## Bytes of a joined payload -/

theorem byteAt_append (front back : Payload) (i : Nat) :
    byteAt (front ++ back) i = if i < front.length then byteAt front i else byteAt back (i - front.length) := by
  unfold byteAt
  split
  case isTrue h => rw [List.getD_append _ _ _ _ h]
  case isFalse h => rw [List.getD_append_right _ _ _ _ (Nat.le_of_not_lt h)]

/-! ## Two-byte words -/

@[simp] theorem word16_length (v : Int) : (word16 v).length = 2 := rfl

theorem le16_lt (b0 b1 : Byte) : le16 b0.toNat b1.toNat < 2 ^ 16 := by
  unfold le16
  omega

/-- `w16` is determined by its number modulo 2^16: it is the two bytes of that pattern (R13, R121). -/
theorem word16_of_emod {v : Int} {b0 b1 : Byte} (h : v % 65536 = le16 b0.toNat b1.toNat) : word16 v = [b0, b1] := by
  unfold le16 at h
  have hlow : v % 256 = b0.toNat := by omega
  have hhigh : v % 65536 / 256 = b1.toNat := by omega
  rw [word16, hlow, hhigh]
  simp

theorem word16_le16 (b0 b1 : Byte) : word16 (le16 b0.toNat b1.toNat) = [b0, b1] :=
  word16_of_emod (Int.emod_eq_of_lt (Int.natCast_nonneg _) (by exact_mod_cast le16_lt b0 b1))

theorem word16_sext_le16 (b0 b1 : Byte) : word16 (sext 16 (le16 b0.toNat b1.toNat)) = [b0, b1] :=
  word16_of_emod (sext_emod (by decide) (le16_lt b0 b1))

/-- The two bytes of `w16` hold its number modulo 2^16. -/
theorem le16_word16 (v : Int) : (le16 (byteAt (word16 v) 0) (byteAt (word16 v) 1) : Int) = v % 65536 := by
  simp only [word16, byteAt, List.getD_cons_zero, List.getD_cons_succ, BitVec.toNat_ofInt, le16]
  omega

theorem le16_word16_of_unsigned {v : Int} (hv : 0 ≤ v ∧ v ≤ 65535) :
    (le16 (byteAt (word16 v) 0) (byteAt (word16 v) 1) : Int) = v :=
  (le16_word16 v).trans (Int.emod_eq_of_lt hv.1 (by omega))

theorem sext_le16_word16 {v : Int} (hv : -32768 ≤ v ∧ v ≤ 32767) :
    sext 16 (le16 (byteAt (word16 v) 0) (byteAt (word16 v) 1)) = v :=
  sext_of_emod (by decide) (le16_word16 v) (by omega)

/-! ## Single bytes -/

theorem ofInt_zext (b : Byte) : BitVec.ofInt 8 (zext 8 b.toNat) = b := by
  rw [zext_eq (by decide) b.isLt]
  simp

theorem ofInt_sext_emod (b : Byte) : BitVec.ofInt 8 (sext 8 b.toNat % 256) = b := by
  have hmod : sext 8 b.toNat % 256 = b.toNat := sext_emod (by decide) b.isLt
  rw [hmod]
  simp

theorem zext_ofInt {v : Int} (hv : 0 ≤ v ∧ v ≤ 255) : zext 8 (BitVec.ofInt 8 v).toNat = v := by
  rw [zext_eq (by decide) (BitVec.isLt _), BitVec.toNat_ofInt]
  omega

theorem sext_ofInt {v : Int} (hv : -128 ≤ v ∧ v ≤ 127) : sext 8 (BitVec.ofInt 8 (v % 256)).toNat = v := by
  refine sext_of_emod (by decide) ?_ (by omega)
  rw [BitVec.toNat_ofInt]
  omega

/-! ## Two 12-bit patterns in three bytes -/

theorem shiftLeft_4_or {lo : Nat} (hi : Nat) (h : lo < 16) : (hi <<< 4) ||| lo = 16 * hi + lo := by
  rw [← Nat.shiftLeft_add_eq_or_of_lt (i := 4) h, Nat.shiftLeft_eq, Nat.mul_comm]

theorem and_0x0F (n : Nat) : n &&& 0x0F = n % 16 := Nat.and_two_pow_sub_one_eq_mod n 4

theorem shiftRight_4 (n : Nat) : n >>> 4 = n / 16 := Nat.shiftRight_eq_div_pow n 4

/-- H4's pattern as arithmetic (R117). -/
theorem lowNibble_pattern (hi shared : Nat) : (hi <<< 4) ||| (shared &&& 0x0F) = 16 * hi + shared % 16 := by
  rw [and_0x0F, shiftLeft_4_or hi (Nat.mod_lt _ (by decide))]

/-- H5's pattern as arithmetic (R118). -/
theorem highNibble_pattern (hi : Nat) {shared : Nat} (h : shared < 256) :
    (hi <<< 4) ||| (shared >>> 4) = 16 * hi + shared / 16 := by
  rw [shiftRight_4, shiftLeft_4_or hi (by omega)]

/-- The bytes of two 12-bit patterns: the second byte takes the low nibble of each (R121). -/
def packedBytes (h4 h5 : Nat) : List Byte :=
  [BitVec.ofNat 8 (h4 >>> 4), BitVec.ofNat 8 ((h4 &&& 0xF) ||| ((h5 &&& 0xF) <<< 4)), BitVec.ofNat 8 (h5 >>> 4)]

@[simp] theorem packedBytes_length (h4 h5 : Nat) : (packedBytes h4 h5).length = 3 := rfl

theorem packedBytes_eq (h4 h5 : Nat) :
    packedBytes h4 h5 =
      [BitVec.ofNat 8 (h4 / 16), BitVec.ofNat 8 (16 * (h5 % 16) + h4 % 16), BitVec.ofNat 8 (h5 / 16)] := by
  rw [packedBytes, Nat.or_comm, and_0x0F, and_0x0F, shiftLeft_4_or _ (Nat.mod_lt _ (by decide)), shiftRight_4,
    shiftRight_4]

theorem packedBytes_of_patterns (b3 b4 b5 : Byte) :
    packedBytes (16 * b3.toNat + b4.toNat % 16) (16 * b5.toNat + b4.toNat / 16) = [b3, b4, b5] := by
  have hfirst : (16 * b3.toNat + b4.toNat % 16) / 16 = b3.toNat := by omega
  have hmiddle : 16 * ((16 * b5.toNat + b4.toNat / 16) % 16) + (16 * b3.toNat + b4.toNat % 16) % 16 = b4.toNat := by
    omega
  have hlast : (16 * b5.toNat + b4.toNat / 16) / 16 = b5.toNat := by omega
  rw [packedBytes_eq, hfirst, hmiddle, hlast]
  simp

/-- R117, R118 and R121: H4 and H5 decoded from three bytes encode back to them. -/
theorem packedBytes_sext (b3 b4 b5 : Byte) :
    packedBytes (sext 12 ((b3.toNat <<< 4) ||| (b4.toNat &&& 0x0F)) % 4096).toNat
      (sext 12 ((b5.toNat <<< 4) ||| (b4.toNat >>> 4)) % 4096).toNat = [b3, b4, b5] := by
  rw [lowNibble_pattern, highNibble_pattern _ b4.isLt]
  have h4 : sext 12 (16 * b3.toNat + b4.toNat % 16) % 4096 = _ := sext_emod (by decide) (by omega)
  have h5 : sext 12 (16 * b5.toNat + b4.toNat / 16) % 4096 = _ := sext_emod (by decide) (by omega)
  rw [h4, h5]
  exact packedBytes_of_patterns b3 b4 b5

theorem sext_packedBytes_low {v : Int} (hv : -2048 ≤ v ∧ v ≤ 2047) (h5 : Nat) :
    sext 12 ((byteAt (packedBytes (v % 4096).toNat h5) 0 <<< 4) |||
      (byteAt (packedBytes (v % 4096).toNat h5) 1 &&& 0x0F)) = v := by
  refine sext_of_emod (by decide) ?_ (by omega)
  rw [lowNibble_pattern, packedBytes_eq]
  simp only [byteAt, List.getD_cons_zero, List.getD_cons_succ, BitVec.toNat_ofNat]
  omega

theorem sext_packedBytes_high {v : Int} (hv : -2048 ≤ v ∧ v ≤ 2047) (h4 : Nat) :
    sext 12 ((byteAt (packedBytes h4 (v % 4096).toNat) 2 <<< 4) |||
      (byteAt (packedBytes h4 (v % 4096).toNat) 1 >>> 4)) = v := by
  refine sext_of_emod (by decide) ?_ (by omega)
  rw [highNibble_pattern _ (byteAt_lt _ _), packedBytes_eq]
  simp only [byteAt, List.getD_cons_zero, List.getD_cons_succ, BitVec.toNat_ofNat]
  omega

/-! ## The codec -/

/-- The encoder's fields, the packed pair as one. -/
theorem encodeCal_eq (c : Cal) :
    encodeCal c = word16 c.t1 ++ word16 c.t2 ++ word16 c.t3 ++ word16 c.p1 ++ word16 c.p2 ++ word16 c.p3 ++
      word16 c.p4 ++ word16 c.p5 ++ word16 c.p6 ++ word16 c.p7 ++ word16 c.p8 ++ word16 c.p9 ++
      [BitVec.ofInt 8 c.h1] ++ word16 c.h2 ++ [BitVec.ofInt 8 c.h3] ++
      packedBytes (c.h4 % 4096).toNat (c.h5 % 4096).toNat ++ [BitVec.ofInt 8 (c.h6 % 256)] := by
  simp only [encodeCal, packedBytes, List.append_assoc, List.cons_append, List.nil_append]

/-- Whatever the payload, the 32 bytes that the decoder reads come back. -/
theorem encodeCal_decodeCal_eq_map (pl : Payload) :
    encodeCal (decodeCal pl) = (List.range 32).map fun i => pl.getD i 0 := by
  simp only [encodeCal_eq, decodeCal, word1, signed1, block1, block2, block3, byteAt, word16_le16, word16_sext_le16,
    ofInt_zext, ofInt_sext_emod, packedBytes_sext, List.cons_append, List.nil_append, Nat.reduceAdd]
  rfl

/-- R120: a payload of 32 bytes encodes back to itself. -/
theorem encodeCal_decodeCal {pl : Payload} (hlen : pl.length = 32) : encodeCal (decodeCal pl) = pl := by
  rw [encodeCal_decodeCal_eq_map, ← hlen]
  exact List.ext_getElem (by simp) (by simp +contextual)

theorem encodeCal_length (c : Cal) : (encodeCal c).length = 32 := by simp [encodeCal_eq]

/-- A decoded set, field by field. -/
theorem decodeCal_eq_iff (pl : Payload) (c : Cal) :
    decodeCal pl = c ↔
      word1 pl 0 = c.t1 ∧ signed1 pl 2 = c.t2 ∧ signed1 pl 4 = c.t3 ∧ word1 pl 6 = c.p1 ∧ signed1 pl 8 = c.p2 ∧
      signed1 pl 10 = c.p3 ∧ signed1 pl 12 = c.p4 ∧ signed1 pl 14 = c.p5 ∧ signed1 pl 16 = c.p6 ∧
      signed1 pl 18 = c.p7 ∧ signed1 pl 20 = c.p8 ∧ signed1 pl 22 = c.p9 ∧ zext 8 (block2 pl) = c.h1 ∧
      sext 16 (le16 (block3 pl 0) (block3 pl 1)) = c.h2 ∧ zext 8 (block3 pl 2) = c.h3 ∧
      sext 12 ((block3 pl 3 <<< 4) ||| (block3 pl 4 &&& 0x0F)) = c.h4 ∧
      sext 12 ((block3 pl 5 <<< 4) ||| (block3 pl 4 >>> 4)) = c.h5 ∧ sext 8 (block3 pl 6) = c.h6 := by
  cases c
  rw [decodeCal, Cal.mk.injEq]

/-- R121: a set of coefficients within their ranges decodes back to itself. -/
theorem decodeCal_encodeCal {c : Cal} (hc : c.InRange) : decodeCal (encodeCal c) = c := by
  simp only [decodeCal_eq_iff, encodeCal_eq, word1, signed1, block1, block2, block3, byteAt_append, List.length_append,
    word16_length, packedBytes_length, List.length_singleton, Nat.reduceAdd, Nat.reduceLT, Nat.reduceSub, ↓reduceIte]
  obtain ⟨ht1, ht2, ht3, hp1, hp2, hp3, hp4, hp5, hp6, hp7, hp8, hp9, hh1, hh2, hh3, hh4, hh5, hh6⟩ := hc
  exact ⟨le16_word16_of_unsigned ht1, sext_le16_word16 ht2, sext_le16_word16 ht3, le16_word16_of_unsigned hp1,
    sext_le16_word16 hp2, sext_le16_word16 hp3, sext_le16_word16 hp4, sext_le16_word16 hp5, sext_le16_word16 hp6,
    sext_le16_word16 hp7, sext_le16_word16 hp8, sext_le16_word16 hp9, zext_ofInt hh1, sext_le16_word16 hh2,
    zext_ofInt hh3, sext_packedBytes_low hh4 _, sext_packedBytes_high hh5 _, sext_ofInt hh6⟩

/-- Settles O6: the codec undoes each group of bytes and each coefficient. -/
theorem calibrationCodecIsBijective : Obligations.CalibrationCodecIsBijective :=
  ⟨fun pl hlen => ⟨decodeCal_inRange pl, encodeCal_decodeCal hlen⟩,
    fun c hc => ⟨encodeCal_length c, decodeCal_encodeCal hc⟩⟩

end Sys2Proof.Machine
end

section
/-! The coefficients from the sensor's registers (40_calibration.md R101 to R119), and what lies outside the payload. -/

namespace Sys2Proof.Machine

/-! ## The snapshot's bytes -/

@[simp] theorem rangePayload_length (sensor : Nat → Byte) (base n : Nat) :
    (rangePayload sensor base n).length = n := by
  simp [rangePayload]

theorem byteAt_rangePayload (sensor : Nat → Byte) (base : Nat) {n i : Nat} (h : i < n) :
    byteAt (rangePayload sensor base n) i = (sensor (base + i)).toNat := by
  simp [byteAt, rangePayload, h]

section
variable (sensor : Nat → Byte)

theorem block1_snapshot {k : Nat} (h : k < 24) : block1 (snapshotPayload sensor) k = (sensor (0x88 + k)).toNat := by
  simp [block1, snapshotPayload, byteAt_append, byteAt_rangePayload, h]

theorem block2_snapshot : block2 (snapshotPayload sensor) = (sensor 0xA1).toNat := by
  simp [block2, snapshotPayload, byteAt_append, byteAt_rangePayload]

theorem block3_snapshot {k : Nat} (h : k < 7) : block3 (snapshotPayload sensor) k = (sensor (0xE1 + k)).toNat := by
  rw [block3, snapshotPayload, byteAt_append, if_neg (by simp)]
  simp [byteAt_rangePayload, h]

end

/-! ## Signs by the high byte -/

/-- A signed word has its sign in bit 7 of its high byte. -/
theorem sext_le16 (b0 b1 : Byte) :
    sext 16 (le16 b0.toNat b1.toNat) =
      if b1.toNat < 128 then ((b0.toNat + 256 * b1.toNat : Nat) : Int)
      else ((b0.toNat + 256 * b1.toNat : Nat) : Int) - 65536 := by
  have hsign : b0.toNat + 256 * b1.toNat < 2 ^ 15 ↔ b1.toNat < 128 := by omega
  rw [sext_eq (by decide) (le16_lt b0 b1), le16]
  exact if_congr hsign rfl rfl

/-- A signed 12-bit pattern has its sign in bit 7 of the byte that is whole in it. -/
theorem sext_12_pattern (hi : Byte) {lo : Nat} (h : lo < 16) :
    sext 12 (16 * hi.toNat + lo) =
      if (hi.toNat : Int) < 128 then (16 * hi.toNat + lo : Int) else (16 * hi.toNat + lo : Int) - 4096 := by
  have hsign : 16 * hi.toNat + lo < 2 ^ 11 ↔ (hi.toNat : Int) < 128 := by omega
  rw [sext_eq (by decide) (by omega)]
  push_cast
  exact if_congr hsign rfl rfl

theorem sext_8 (b : Byte) :
    sext 8 b.toNat = if (b.toNat : Int) < 128 then (b.toNat : Int) else (b.toNat : Int) - 256 := by
  have hsign : b.toNat < 2 ^ 7 ↔ (b.toNat : Int) < 128 := by omega
  rw [sext_eq (by decide) b.isLt]
  exact if_congr hsign rfl rfl

/-! ## The coefficients -/

section
variable (sensor : Nat → Byte)

theorem word1_snapshot {k : Nat} (h : k + 1 < 24) :
    word1 (snapshotPayload sensor) k =
      (((sensor (0x88 + k)).toNat + 256 * (sensor (0x88 + k + 1)).toNat : Nat) : Int) := by
  rw [word1, block1_snapshot sensor h, block1_snapshot sensor (Nat.lt_of_succ_lt h)]
  rfl

theorem signed1_snapshot {k : Nat} (h : k + 1 < 24) :
    signed1 (snapshotPayload sensor) k =
      if (sensor (0x88 + k + 1)).toNat < 128
      then (((sensor (0x88 + k)).toNat + 256 * (sensor (0x88 + k + 1)).toNat : Nat) : Int)
      else (((sensor (0x88 + k)).toNat + 256 * (sensor (0x88 + k + 1)).toNat : Nat) : Int) - 65536 := by
  rw [signed1, block1_snapshot sensor h, block1_snapshot sensor (Nat.lt_of_succ_lt h)]
  exact sext_le16 _ _

end

/-- Settles O7: offset `k` of block 1 is register 0x88 + k, and each coefficient is the word there. -/
theorem block1Coefficients : Obligations.Block1Coefficients := by
  intro sensor
  have hword {k : Nat} (h : k + 1 < 24) := word1_snapshot sensor h
  have hsigned {k : Nat} (h : k + 1 < 24) := signed1_snapshot sensor h
  exact ⟨hword (k := 0) (by decide), hsigned (k := 2) (by decide), hsigned (k := 4) (by decide),
    hword (k := 6) (by decide), hsigned (k := 8) (by decide), hsigned (k := 10) (by decide),
    hsigned (k := 12) (by decide), hsigned (k := 14) (by decide), hsigned (k := 16) (by decide),
    hsigned (k := 18) (by decide), hsigned (k := 20) (by decide), hsigned (k := 22) (by decide)⟩

/-- Settles O8: each register of blocks 2 and 3 is a byte of the snapshot, with the sign in the high byte's bit 7. -/
theorem block2And3Coefficients : Obligations.Block2And3Coefficients := by
  intro sensor
  simp only [decodeCal, block2_snapshot, block3_snapshot, Nat.reduceLT, Nat.reduceAdd]
  refine ⟨zext_eq (by decide) (BitVec.isLt _), ?_, zext_eq (by decide) (BitVec.isLt _), ?_, ?_, sext_8 _⟩
  · exact_mod_cast sext_le16 _ _
  · rw [lowNibble_pattern]
    exact sext_12_pattern _ (Nat.mod_lt _ (by decide))
  · rw [highNibble_pattern _ (BitVec.isLt _)]
    exact sext_12_pattern _ (by omega)

/-! ## The end of the payload -/

/-- Nothing after the 32nd byte is read. -/
theorem decodeCal_append {pl : Payload} (hlen : pl.length = 32) (extra : List Byte) :
    decodeCal (pl ++ extra) = decodeCal pl := by
  simp only [decodeCal, word1, signed1, block1, block2, block3, byteAt_append, hlen, Nat.reduceAdd, Nat.reduceLT,
    ↓reduceIte]

/-- Settles O9: the two packed fields by their bytes, and the eighth byte is past the payload. -/
theorem packedFieldExample : Obligations.PackedFieldExample :=
  ⟨by decide, by decide, decodeCal_append rfl _⟩

end Sys2Proof.Machine
end

section
/-! LOADCAL (40_calibration.md R100): its checks in their order, its success and its corner cases. -/

namespace Sys2Proof.Machine

section
variable {pl : Payload} {s : State}

theorem commandError_loadcal_short (h : pl.length < 32) : commandError (.loadcal pl) s = some .short := by
  rw [commandError, lengthError_short h, Option.some_or]

theorem commandError_loadcal_long (h : pl.length > 32) : commandError (.loadcal pl) s = some .frame := by
  rw [commandError, lengthError_long h, Option.some_or]

theorem commandError_loadcal_locked (hlen : pl.length = 32) (hcal : s.flag .calValid = 1) :
    commandError (.loadcal pl) s = some .calLocked := by
  rw [commandError, lengthError_none.mpr hlen, Option.none_or, lockedError, if_pos hcal]

theorem commandError_loadcal :
    commandError (.loadcal pl) s = none ↔ pl.length = 32 ∧ s.flag .calValid = 0 := by
  rw [commandError, Option.or_eq_none_iff, lengthError_none, lockedError_none]

end

/-- A command that a check stops leaves R185's frame. -/
theorem exec_failsWith {i : Instr} {s : State} {e : ResultCode} (h : commandError i s = some e) :
    FailsWith e.code s (exec i s) :=
  exec_of_error h ▸ fail_failsWith s e

theorem afterLoadcal_flag_calValid (pl : Payload) (s : State) : (afterLoadcal pl s).flag .calValid = 1 := by simp

/-- A successful LOADCAL writes no field of STATUS but CAL_VALID and CODE. -/
theorem afterLoadcal_sameFlags (pl : Payload) (s : State) : SameFlagsBut [.calValid, .code] s (afterLoadcal pl s) := by
  intro f hf
  obtain ⟨hvalid, hcode⟩ : f ≠ .calValid ∧ f ≠ .code := by simpa using hf
  exact (State.complete_flag_ne _ hcode).trans (State.flag_setFlag_ne _ 1 hvalid)

/-- Settles O23: the first failing check decides the code, and without one the decoded set is stored and nothing else. -/
theorem loadcalLoadsOnce : Obligations.LoadcalLoadsOnce := by
  refine ⟨fun pl s => ⟨fun h => exec_failsWith (commandError_loadcal_short h),
    fun h => exec_failsWith (commandError_loadcal_long h),
    fun hlen hcal => exec_failsWith (commandError_loadcal_locked hlen hcal), fun hlen hcal => ?success⟩,
    by decide, by decide, by decide⟩
  exact ⟨afterLoadcal pl s, exec_of_no_error (commandError_loadcal.mpr ⟨hlen, hcal⟩), rfl,
    afterLoadcal_flag_calValid pl s, State.complete_flag_code _, afterLoadcal_sameFlags pl s,
    ⟨rfl, rfl, rfl⟩, ⟨rfl, rfl⟩, ⟨rfl, rfl⟩, ⟨rfl, rfl, rfl⟩⟩

end Sys2Proof.Machine
end

section
/-! The three formulas against rational floors (41_compensation.md R134, R135, R141, R156), the host's unit conversions
(R145) and the raw samples (R131, R132). -/

namespace Sys2Proof.Machine

/-- R131: the sample from the three bytes, the low nibble of the last one dropped. -/
theorem rawTp_bytes (b0 b1 b2 : Byte) :
    rawTp [b0, b1, b2] = b0.toNat * 4096 + b1.toNat * 16 + b2.toNat / 16 := by
  simp only [rawTp, be24, byteAt, List.getD_cons_zero, List.getD_cons_succ]
  omega

/-- Settles O2: the assembled bytes, and the bounds every sample has. -/
theorem rawSamplesAreBigEndian : Obligations.RawSamplesAreBigEndian :=
  ⟨fun b0 b1 b2 => ⟨rawTp_bytes b0 b1 b2, rfl, Nat.le_of_lt_succ (rawTp_lt _)⟩,
    fun _ _ => ⟨rfl, Nat.le_of_lt_succ (rawH_lt _)⟩⟩

/-- Settles O12: each shift is the floor of its rational quotient. -/
theorem temperatureFormula : Obligations.TemperatureFormula := by
  refine ⟨fun _ => rfl, fun raw c => ?_⟩
  simp only [← asr_eq_floor]
  rfl

/-- Settles O14: each shift, and the division by a divisor of either sign, is the floor of its rational quotient; the
guard splits the two cases. -/
theorem pressureFormula : Obligations.PressureFormula := by
  refine ⟨by decide, fun raw c tf => ?_⟩
  simp only [← asr_eq_floor, ← floorDiv_eq_floor]
  exact ⟨compP_of_divisor_zero raw, compP_of_divisor_ne_zero raw⟩

/-- Settles O17: each shift is the floor of its rational quotient, and the clamp splits the three cases. -/
theorem humidityFormula : Obligations.HumidityFormula := by
  refine ⟨fun _ => rfl, fun raw c tf => ?_⟩
  have hmax : ⌊(419430400 : ℚ) / 2 ^ 12⌋ = 102400 := by norm_num
  simp only [← asr_eq_floor, hmax]
  exact ⟨compH_of_lt_zero, compH_of_gt_max, compH_of_mem⟩

/-- Settles O18: HCL and HUM in each of the clamp's three cases. -/
theorem humidityIsClamped : Obligations.HumidityIsClamped := by
  intro raw c tf
  obtain ⟨hlo, hhi⟩ := compH_range raw c tf
  refine ⟨hlo, hhi, ?_⟩
  rw [← asr_eq_floor]
  rcases lt_or_ge (humUnclamped raw c tf) 0 with hneg | h0
  · have hbig : ¬ humUnclamped raw c tf > 419430400 := by omega
    simp [compH_of_lt_zero hneg, hneg, hbig]
  rcases lt_or_ge 419430400 (humUnclamped raw c tf) with hbig | h1
  · simp [compH_of_gt_max hbig, h0, hbig]
  · simp [compH_of_mem h0 h1, h0, h1]

/-- R145: the two-digit value is the exact pressure in Pa, rounded down. -/
theorem hectopascalTwoDigits_eq (press : Int) : hectopascalTwoDigits press = (⌊(press : ℚ) / 256⌋ : ℚ) / 100 := by
  rw [hectopascalTwoDigits, floorDiv_eq_floor, Int.cast_ofNat]

/-- Settles O22: the rounding is that of the floor, by less than 1 Pa, which is a hundredth of a hPa. -/
theorem twoDigitPressureRoundsDown : Obligations.TwoDigitPressureRoundsDown := by
  intro press
  have hle := Int.floor_le ((press : ℚ) / 256)
  have hlt := Int.lt_floor_add_one ((press : ℚ) / 256)
  refine ⟨rfl, rfl, hectopascalTwoDigits_eq press, ?_⟩
  rw [hectopascalTwoDigits_eq, hectopascal, pascal]
  refine ⟨by linarith, by linarith, by ring⟩

end Sys2Proof.Machine
end

section
/-! COMPT, COMPP and COMPH (41_compensation.md R130, R140, R155): their checks in order, what each success writes and
leaves, and what it depends on (R172). -/

namespace Sys2Proof.Machine

/-! ## The checks of a command in their order -/

/-- The checks a command makes after that of its length (R182, checks 5 to 7). -/
def laterError (i : Instr) (s : State) : Option ResultCode :=
  match i with
  | .loadcal _ => lockedError s
  | .compt _ => noCalError s
  | .compp _ | .comph _ => (noCalError s).or (noTfineError s)

/-- R182: the length decides first. -/
theorem commandError_eq_or (i : Instr) (s : State) :
    commandError i s = (lengthError i.need i.payload).or (laterError i s) := by
  cases i with
  | loadcal pl | compt pl => rfl
  | compp pl | comph pl => exact Option.or_assoc

section
variable {i : Instr} {s : State}

theorem exec_failsWith_short (h : i.payload.length < i.need) : FailsWith 2 s (exec i s) :=
  exec_failsWith (e := .short) (by rw [commandError_eq_or, lengthError_short h, Option.some_or])

theorem exec_failsWith_long (h : i.payload.length > i.need) : FailsWith 3 s (exec i s) :=
  exec_failsWith (e := .frame) (by rw [commandError_eq_or, lengthError_long h, Option.some_or])

/-- With the exact length, what the later checks find decides. -/
theorem exec_failsWith_later {e : ResultCode} (hlen : i.payload.length = i.need) (h : laterError i s = some e) :
    FailsWith e.code s (exec i s) :=
  exec_failsWith (by rw [commandError_eq_or, lengthError_none.mpr hlen, Option.none_or, h])

theorem noCalError_of_clear (hcal : s.flag .calValid = 0) : noCalError s = some .noCal := if_pos hcal

/-- Compensation without a calibration set is E_NOCAL. -/
theorem laterError_noCal (hi : ∀ pl, i ≠ .loadcal pl) (hcal : s.flag .calValid = 0) :
    laterError i s = some .noCal := by
  cases i with
  | loadcal pl => exact absurd rfl (hi pl)
  | compt pl => exact noCalError_of_clear hcal
  | compp pl | comph pl => rw [laterError, noCalError_of_clear hcal, Option.some_or]

/-- With a calibration set but no `t_fine`, the last check of COMPP and COMPH is E_NOTFINE. -/
theorem noCalError_or_noTfineError (hcal : s.flag .calValid = 1) (htv : s.flag .tv = 0) :
    (noCalError s).or (noTfineError s) = some .noTfine := by
  rw [noCalError_none.mpr hcal, Option.none_or, noTfineError, if_pos htv]

/-- A COMPT that passes its checks. -/
theorem exec_compt_succeeds {pl : Payload} (hlen : pl.length = 3) (hcal : s.flag .calValid = 1) :
    exec (.compt pl) s = .next (afterCompt pl s) :=
  exec_of_no_error (commandError_compt.mpr ⟨hlen, hcal⟩)

theorem exec_compp_succeeds {pl : Payload} (hlen : pl.length = 3) (hcal : s.flag .calValid = 1)
    (htv : s.flag .tv = 1) : exec (.compp pl) s = .next (afterCompp pl s) :=
  exec_of_no_error (commandError_compp.mpr ⟨⟨hlen, hcal⟩, htv⟩)

theorem exec_comph_succeeds {pl : Payload} (hlen : pl.length = 2) (hcal : s.flag .calValid = 1)
    (htv : s.flag .tv = 1) : exec (.comph pl) s = .next (afterComph pl s) :=
  exec_of_no_error (commandError_comph.mpr ⟨⟨hlen, hcal⟩, htv⟩)

/-- A command that ends with code 0 left its own writes. -/
theorem eq_afterCommand_of_code_zero {t : State} (h : exec i s = .next t) (hcode : t.flag .code = 0) :
    t = afterCommand i s := by
  obtain ⟨e, hok, -, he⟩ | ⟨-, he⟩ := exec_outcome i s <;> cases he.symm.trans h
  · rw [State.fail_flag_code] at hcode
    exact absurd (ResultCode.code_eq_zero.mp hcode) hok
  · rfl

end

/-! ## What each success writes and leaves -/

section
variable (pl : Payload) (s : State)

theorem afterCompt_rawT : (afterCompt pl s).rawT.toNat = rawTp pl := by simp

theorem afterCompt_tfine :
    (afterCompt pl s).tfine = BitVec.ofInt 32 (compT (rawTp pl) s.cal).1 := rfl

theorem afterCompt_temp :
    (afterCompt pl s).temp = BitVec.ofInt 32 (compT (rawTp pl) s.cal).2 := rfl

theorem afterCompp_rawP : (afterCompp pl s).rawP.toNat = rawTp pl := by simp

theorem afterComph_rawH : (afterComph pl s).rawH.toNat = rawH pl := by simp

/-- A successful COMPT writes the fields of STATUS that begin a new cycle (R130). -/
theorem afterCompt_sameFlags : SameFlagsBut [.tv, .pv, .hv, .pz, .hcl, .code] s (afterCompt pl s) := by
  intro f hf
  simp only [List.mem_cons, List.not_mem_nil, or_false, not_or] at hf
  simp [hf]

theorem afterCompp_sameFlags : SameFlagsBut [.pv, .pz, .code] s (afterCompp pl s) := by
  intro f hf
  simp only [List.mem_cons, List.not_mem_nil, or_false, not_or] at hf
  simp [hf]

theorem afterComph_sameFlags : SameFlagsBut [.hv, .hcl, .code] s (afterComph pl s) := by
  intro f hf
  simp only [List.mem_cons, List.not_mem_nil, or_false, not_or] at hf
  simp [hf]

/-- After a COMPT the old pressure and humidity have no value (R31, R32). -/
theorem afterCompt_register_eq_none :
    (afterCompt pl s).register 0x03 = none ∧ (afterCompt pl s).register 0x04 = none ∧
    (afterCompt pl s).register 0x06 = none ∧ (afterCompt pl s).register 0x07 = none := by
  have hpv : (afterCompt pl s).flag .pv = 0 := by simp
  have hhv : (afterCompt pl s).flag .hv = 0 := by simp
  exact ⟨validWhen_of_clear hpv _, validWhen_of_clear hhv _, validWhen_of_clear hpv _, validWhen_of_clear hhv _⟩

end

/-! ## What the formulas read -/

/-- R136: `comp_t` reads T1, T2 and T3 only. -/
theorem compT_congr (raw : Int) {c d : Cal} (h1 : c.t1 = d.t1) (h2 : c.t2 = d.t2) (h3 : c.t3 = d.t3) :
    compT raw c = compT raw d := by
  simp only [compT, tFine, tempVar1, tempVar2, h1, h2, h3]

/-- R147: `comp_p` reads P1 to P9 only. -/
theorem compP_congr (raw tf : Int) {c d : Cal} (h1 : c.p1 = d.p1) (h2 : c.p2 = d.p2) (h3 : c.p3 = d.p3)
    (h4 : c.p4 = d.p4) (h5 : c.p5 = d.p5) (h6 : c.p6 = d.p6) (h7 : c.p7 = d.p7) (h8 : c.p8 = d.p8)
    (h9 : c.p9 = d.p9) : compP raw c tf = compP raw d tf := by
  have hdiv : pressDivisor c tf = pressDivisor d tf := by simp only [pressDivisor, pressSlope, h1, h2, h3]
  have hnum : pressNumerator raw c tf = pressNumerator raw d tf := by
    simp only [pressNumerator, pressOffset, h4, h5, h6]
  have hcorr : pressCorrect c = pressCorrect d := by
    funext p
    simp only [pressCorrect, h7, h8, h9]
  simp only [compP]
  rw [hdiv, hnum, hcorr]

/-- R156: `comp_h` reads H1 to H6 only. -/
theorem compH_congr (raw tf : Int) {c d : Cal} (h1 : c.h1 = d.h1) (h2 : c.h2 = d.h2) (h3 : c.h3 = d.h3)
    (h4 : c.h4 = d.h4) (h5 : c.h5 = d.h5) (h6 : c.h6 = d.h6) : compH raw c tf = compH raw d tf := by
  simp only [compH, humUnclamped, humA, humB, h1, h2, h3, h4, h5, h6]

/-! ## The golden vectors (95_test_vectors.md) -/

theorem compT_golden : compT 519888 goldenCal = (128422, 2508) := by decide

theorem compP_golden : compP 415148 goldenCal 128422 = (25767233, 0) := by decide

theorem compH_golden : compH 30000 goldenCal 128422 = (56317, 0) := by decide

theorem rawTp_golden_temperature : rawTp [0x7E, 0xED, 0x00] = 519888 := by decide

theorem rawTp_golden_pressure : rawTp [0x65, 0x5A, 0xC0] = 415148 := by decide

theorem rawH_golden : rawH [0x75, 0x30] = 30000 := by decide

/-! ## The commands -/

/-- Settles O24: the first failing check decides the code, and without one the formula's values are stored. -/
theorem comptComputesTemperature : Obligations.ComptComputesTemperature := by
  refine ⟨fun pl s => ⟨exec_failsWith_short (i := .compt pl), exec_failsWith_long (i := .compt pl),
    fun hlen hcal => exec_failsWith_later (i := .compt pl) hlen (laterError_noCal nofun hcal),
    fun hlen hcal => ?success⟩, fun s hcal h1 h2 h3 => ?golden⟩
  case success =>
    obtain ⟨h03, h04, h06, h07⟩ := afterCompt_register_eq_none pl s
    exact ⟨_, exec_compt_succeeds hlen hcal, afterCompt_rawT pl s, afterCompt_tfine pl s, afterCompt_temp pl s,
      by simp, by simp, by simp, by simp, by simp, by simp, h03, h04, h06, h07,
      afterCompt_sameFlags pl s, rfl, ⟨rfl, rfl⟩, ⟨rfl, rfl⟩, ⟨rfl, rfl, rfl⟩⟩
  case golden =>
    have hres : compT (rawTp [0x7E, 0xED, 0x00]) s.cal = (128422, 2508) := by
      rw [rawTp_golden_temperature, ← compT_golden]
      exact compT_congr _ h1 h2 h3
    refine ⟨_, exec_compt_succeeds rfl hcal, afterCompt_rawT _ s, ?_, ?_⟩
    · rw [afterCompt_tfine, hres]
      rfl
    · rw [afterCompt_temp, hres]
      rfl

/-- Settles O25: as O24, with E_NOTFINE as the last check. -/
theorem comppComputesPressure : Obligations.ComppComputesPressure := by
  refine ⟨fun pl s => ⟨exec_failsWith_short (i := .compp pl), exec_failsWith_long (i := .compp pl),
    fun hlen hcal => exec_failsWith_later (i := .compp pl) hlen (laterError_noCal nofun hcal),
    fun hlen hcal htv => exec_failsWith_later (i := .compp pl) hlen (noCalError_or_noTfineError hcal htv),
    fun hlen hcal htv => ?success⟩, fun s hcal htv hg htf => ?golden⟩
  case success =>
    exact ⟨_, exec_compp_succeeds hlen hcal htv, afterCompp_rawP pl s, afterCompp_press pl s,
      afterCompp_pz pl s, by simp, by simp, afterCompp_sameFlags pl s,
      rfl, ⟨rfl, rfl, rfl⟩, ⟨rfl, rfl⟩, ⟨rfl, rfl, rfl⟩⟩
  case golden =>
    have hres : compP (rawTp [0x65, 0x5A, 0xC0]) s.cal s.tfine.toInt = (25767233, 0) := by
      rw [rawTp_golden_pressure, hg, htf]
      exact compP_golden
    have hpress : (afterCompp [0x65, 0x5A, 0xC0] s).press.toInt = 25767233 := by
      rw [afterCompp_press, hres]
      rfl
    refine ⟨_, exec_compp_succeeds rfl hcal htv, afterCompp_rawP _ s, hpress, ?_, ?_, ?_⟩
    · rw [afterCompp_pz, hres]
    · rw [hpress, pascal]
      norm_num
    · rw [hpress, hectopascal]
      norm_num

/-- Settles O26: as O25, for humidity. -/
theorem comphComputesHumidity : Obligations.ComphComputesHumidity := by
  refine ⟨fun pl s => ⟨exec_failsWith_short (i := .comph pl), exec_failsWith_long (i := .comph pl),
    fun hlen hcal => exec_failsWith_later (i := .comph pl) hlen (laterError_noCal nofun hcal),
    fun hlen hcal htv => exec_failsWith_later (i := .comph pl) hlen (noCalError_or_noTfineError hcal htv),
    fun hlen hcal htv => ?success⟩, fun s hcal htv h1 h2 h3 h4 h5 h6 htf => ?golden⟩
  case success =>
    exact ⟨_, exec_comph_succeeds hlen hcal htv, afterComph_rawH pl s, afterComph_hum pl s,
      afterComph_hcl pl s, by simp, by simp, afterComph_sameFlags pl s,
      rfl, ⟨rfl, rfl, rfl⟩, ⟨rfl, rfl⟩, ⟨rfl, rfl, rfl⟩⟩
  case golden =>
    have hres : compH (rawH [0x75, 0x30]) s.cal s.tfine.toInt = (56317, 0) := by
      rw [rawH_golden, htf, ← compH_golden]
      exact compH_congr _ _ h1 h2 h3 h4 h5 h6
    have hhum : (afterComph [0x75, 0x30] s).hum.toNat = 56317 := by
      rw [afterComph_hum, hres]
      rfl
    refine ⟨_, exec_comph_succeeds rfl hcal htv, afterComph_rawH _ s, hhum, ?_, ?_⟩
    · rw [afterComph_hcl, hres]
    · rw [hhum, relativeHumidity]
      norm_num

/-- Settles O28: each success stores a function of the payload, CAL and TFINE. -/
theorem resultsDependOnOperandsOnly : Obligations.ResultsDependOnOperandsOnly := by
  intro pl s t s' t' hcal
  refine ⟨fun hs ht hs0 ht0 => ?compt, fun htf hs ht hs0 ht0 => ?compp, fun htf hs ht hs0 ht0 => ?comph⟩ <;>
    rw [eq_afterCommand_of_code_zero hs hs0, eq_afterCommand_of_code_zero ht ht0, afterCommand, afterCommand]
  case compt => simp [hcal]
  case compp =>
    rw [afterCompp_pz, afterCompp_pz]
    simp [hcal, htf]
  case comph =>
    rw [afterComph_hcl, afterComph_hcl]
    simp [hcal, htf]

/-! ## The zero-divisor guard and the corner cases -/

/-- R143: the divisor is 0 exactly within the bound. -/
theorem pressDivisor_eq_zero_iff (c : Cal) (tf : Int) : pressDivisor c tf = 0 ↔
    0 ≤ (2 ^ 47 + pressSlope c tf) * c.p1 ∧ (2 ^ 47 + pressSlope c tf) * c.p1 < 2 ^ 33 := by
  rw [pressDivisor, asr_iff, shl_eq_mul, one_mul, zero_mul, zero_add, one_mul]

theorem compP_pz_eq_one_iff (raw : Int) (c : Cal) (tf : Int) : (compP raw c tf).2 = 1 ↔ pressDivisor c tf = 0 := by
  by_cases h : pressDivisor c tf = 0
  · simp [compP_of_divisor_zero raw h, h]
  · simp [compP_of_divisor_ne_zero raw h, h]

/-- R143: with P1 = 0 the divisor is 0. -/
theorem compP_of_p1_zero {c : Cal} (raw tf : Int) (h : c.p1 = 0) : compP raw c tf = (0, 1) :=
  compP_of_divisor_zero raw ((pressDivisor_eq_zero_iff c tf).mpr (by simp [h]))

/-- Settles O15: the divisor's two inequalities, and COMPP's success with the guard's values (O27). -/
theorem zeroDivisorGuard : Obligations.ZeroDivisorGuard := by
  refine ⟨fun raw c tf => ⟨?_, compP_of_p1_zero raw tf⟩, fun pl s hlen hcal htv hzero => ?_⟩
  · rw [compP_pz_eq_one_iff, pressDivisor_eq_zero_iff]
  · refine ⟨afterCompp pl s, exec_compp_succeeds hlen hcal htv, ?_, ?_, by simp, by simp⟩
    · rw [afterCompp_press, compP_of_divisor_zero _ hzero]
      rfl
    · rw [afterCompp_pz, compP_of_divisor_zero _ hzero]

/-- Settles O13: closed values, and the extremes for whatever the other coefficients are. -/
theorem temperatureCornerCases : Obligations.TemperatureCornerCases := by
  refine ⟨by decide, compT_golden, by decide, by decide, by decide, fun raw => ?_, fun c h1 h2 h3 => ?_,
    fun c h1 h2 h3 => ?_, fun raw c d => compT_congr raw⟩
  · simp [compT, tFine, tempVar1, tempVar2, tempOfTfine, asr_eq_div, Cal.zero]
  · rw [compT_congr 0 (d := { Cal.zero with t1 := 65535, t2 := -32768, t3 := 32767 }) h1 h2 h3]
    decide
  · rw [compT_congr 1048575 (d := { Cal.zero with t1 := 0, t2 := -32768, t3 := -32768 }) h1 h2 h3]
    decide

/-- With all H coefficients 0 the intermediate is 0, which is inside the clamp's range. -/
theorem compH_of_zero_coefficients {c : Cal} (raw tf : Int) (h1 : c.h1 = 0) (h2 : c.h2 = 0) :
    humB c tf = 0 ∧ compH raw c tf = (0, 0) := by
  have hb : humB c tf = 0 := by simp [humB, h2, asr_eq_div]
  have hv : humUnclamped raw c tf = 0 := by simp [humUnclamped, hb, h1, asr_eq_div]
  refine ⟨hb, ?_⟩
  rw [compH_of_mem (by omega) (by omega), hv]
  rfl

/-- Settles O16: closed values, the guard with P1 = 0 (R143), what `comp_p` reads, and COMPP's two outcomes. -/
theorem pressureCornerCases : Obligations.PressureCornerCases := by
  refine ⟨fun raw tf c => compP_of_p1_zero raw tf, by decide, by decide, by decide, by decide, by decide,
    fun raw tf c d => compP_congr raw tf, fun pl s t h => ?_⟩
  obtain ⟨e, he⟩ | ⟨-, -, -, he⟩ := execCompp_cases h <;> cases he <;> rfl

/-- Settles O19: closed values, and the zero coefficients. -/
theorem humidityCornerCases : Obligations.HumidityCornerCases :=
  ⟨by decide, by decide, by decide, by decide, by decide, by decide, by decide, by decide,
    fun raw tf _ h1 h2 _ _ _ _ => compH_of_zero_coefficients raw tf h1 h2, by decide, by decide⟩

end Sys2Proof.Machine
end

section
/-! R170: every intermediate of the formulas lies in its row's range. The rows are interval arithmetic, step by step
along the rules: products by their corners, sums, shifts and divisions by monotonicity. -/

namespace Sys2Proof.Machine

/-! ## Intervals -/

/-- A floor shift's range, from that of what is shifted. -/
theorem asr_range {x lo hi : Int} {k : Nat} (h : lo * 2 ^ k ≤ x ∧ x < (hi + 1) * 2 ^ k) :
    lo ≤ asr x k ∧ asr x k ≤ hi := by
  have hp : (0 : Int) < 2 ^ k := by positivity
  rw [asr_eq_div]
  exact ⟨(Int.le_ediv_iff_mul_le hp).mpr h.1, Int.lt_add_one_iff.mp ((Int.ediv_lt_iff_lt_mul hp).mpr h.2)⟩

/-- A square's range, from a symmetric one. -/
theorem sq_range {x m : Int} (h : -m ≤ x ∧ x ≤ m) : 0 ≤ x * x ∧ x * x ≤ m * m :=
  ⟨mul_self_nonneg x, by nlinarith⟩

/-! ## Temperature (R134, R135) -/

section
variable {raw : Int} {c : Cal} (hc : c.InRange) (hraw : 0 ≤ raw ∧ raw ≤ 1048575)
include hc hraw

theorem tempVar1_product_range :
    -4294934528 ≤ (asr raw 3 - shl c.t1 1) * c.t2 ∧ (asr raw 3 - shl c.t1 1) * c.t2 ≤ 4294901760 := by
  obtain ⟨ht1, ht2, -⟩ := hc
  have hasr : 0 ≤ asr raw 3 ∧ asr raw 3 ≤ 131071 := asr_range (by omega)
  have hdiff : -131070 ≤ asr raw 3 - shl c.t1 1 ∧ asr raw 3 - shl c.t1 1 ≤ 131071 := by
    rw [shl_eq_mul]
    omega
  exact mul_bounds hdiff ht2 (by norm_num) (by norm_num)

theorem tempVar2_square_range :
    0 ≤ (asr raw 4 - c.t1) * (asr raw 4 - c.t1) ∧ (asr raw 4 - c.t1) * (asr raw 4 - c.t1) ≤ 4294836225 := by
  obtain ⟨ht1, -⟩ := hc
  have hasr : 0 ≤ asr raw 4 ∧ asr raw 4 ≤ 65535 := asr_range (by omega)
  exact sq_range (m := 65535) (by omega)

theorem tempVar2_product_range :
    -34358689792 ≤ asr ((asr raw 4 - c.t1) * (asr raw 4 - c.t1)) 12 * c.t3 ∧
    asr ((asr raw 4 - c.t1) * (asr raw 4 - c.t1)) 12 * c.t3 ≤ 34357641248 := by
  have hsq := tempVar2_square_range hc hraw
  obtain ⟨-, -, ht3, -⟩ := hc
  exact mul_bounds (a := 0) (b := 1048544) (asr_range (by omega)) ht3 (by norm_num) (by norm_num)

theorem tFine_range : -4194224 ≤ tFine raw c ∧ tFine raw c ≤ 4194144 := by
  have h1 := tempVar1_product_range hc hraw
  have h2 := tempVar2_product_range hc hraw
  have hvar1 : -2097136 ≤ tempVar1 raw c ∧ tempVar1 raw c ≤ 2097120 := asr_range (by omega)
  have hvar2 : -2097088 ≤ tempVar2 raw c ∧ tempVar2 raw c ≤ 2097024 := asr_range (by omega)
  unfold tFine
  omega

theorem tempOfTfine_range : -81918 ≤ tempOfTfine (tFine raw c) ∧ tempOfTfine (tFine raw c) ≤ 81917 := by
  have htf := tFine_range hc hraw
  exact asr_range (by omega)

end

/-! ## Pressure (R141 to R146) -/

section
variable {tf : Int} (htf : -4194224 ≤ tf ∧ tf ≤ 4194144)
include htf

/-- `v1` of R141, squared, times a signed 16-bit coefficient: P3 or P6. -/
theorem pressSquare_mul_range {x : Int} (hx : -32768 ≤ x ∧ x ≤ 32767) :
    -612159334192775168 ≤ (tf - 128000) * (tf - 128000) * x ∧
    (tf - 128000) * (tf - 128000) * x ≤ 612140652572468992 :=
  mul_bounds (sq_range (m := 4322224) (by omega)) hx (by norm_num) (by norm_num)

/-- `v1` of R141 times a signed 16-bit coefficient: P2 or P5. -/
theorem pressLinear_mul_range {x : Int} (hx : -32768 ≤ x ∧ x ≤ 32767) :
    -141626313808 ≤ (tf - 128000) * x ∧ (tf - 128000) * x ≤ 141630636032 :=
  mul_bounds (a := -4322224) (b := 4066144) (by omega) hx (by norm_num) (by norm_num)

variable {c : Cal} (hc : c.InRange)
include hc

theorem pressOffset_range :
    -631848478303059968 ≤ pressOffset c tf ∧ pressOffset c tf ≤ 631830328845559552 := by
  obtain ⟨-, -, -, -, -, -, hp4, hp5, hp6, -⟩ := hc
  have h6 := pressSquare_mul_range htf hp6
  have h5 := pressLinear_mul_range htf hp5
  simp only [pressOffset, shl_eq_mul]
  omega

theorem pressSlope_range : -2971348780548096 ≤ pressSlope c tf ∧ pressSlope c tf ≤ 2971293509298279 := by
  obtain ⟨-, -, -, -, hp2, hp3, -⟩ := hc
  have h3 := pressSquare_mul_range htf hp3
  have h2 := pressLinear_mul_range htf hp2
  have hasr : -2391247399190528 ≤ asr ((tf - 128000) * (tf - 128000) * c.p3) 8 ∧
      asr ((tf - 128000) * (tf - 128000) * c.p3) 8 ≤ 2391174424111207 := asr_range (by omega)
  simp only [pressSlope, shl_eq_mul]
  omega

theorem pressDivisor_product_range :
    -185504111033853050880 ≤ (shl 1 47 + pressSlope c tf) * c.p1 ∧
    (shl 1 47 + pressSlope c tf) * c.p1 ≤ 203946951431229134745 := by
  have hslope := pressSlope_range htf hc
  obtain ⟨-, -, -, hp1, -⟩ := hc
  have hsum : -2830611292192768 ≤ shl 1 47 + pressSlope c tf ∧ shl 1 47 + pressSlope c tf ≤ 3112030997653607 := by
    rw [shl_eq_mul]
    omega
  exact mul_bounds hsum hp1 (by norm_num) (by norm_num)

theorem pressDivisor_range : -21595520787 ≤ pressDivisor c tf ∧ pressDivisor c tf ≤ 23742549986 := by
  have h := pressDivisor_product_range htf hc
  exact asr_range (by omega)

theorem pressNumerator_range {raw : Int} (hraw : 0 ≤ raw ∧ raw ≤ 1048575) :
    -1974469770931487200000 ≤ pressNumerator raw c tf ∧ pressNumerator raw c tf ≤ 1981563369114828800000 := by
  have h := pressOffset_range htf hc
  simp only [pressNumerator, shl_eq_mul]
  omega

end

section
variable {c : Cal} {p : Int} (hc : c.InRange) (hp : -1981563369114828800001 ≤ p ∧ p ≤ 1981563369114828800001)
include hc hp

/-- The P9 term of the correction before its shift, as tightly as the last row needs it. -/
theorem pressCorrect_product_range :
    -1917281926668804336450964010198630432768 ≤ c.p9 * asr p 13 * asr p 13 ∧
    c.p9 * asr p 13 * asr p 13 ≤ 1917223415867819570693626029119217632767 := by
  obtain ⟨-, -, -, -, -, -, -, -, -, -, -, hp9, -⟩ := hc
  have hq : -241890059706400001 ≤ asr p 13 ∧ asr p 13 ≤ 241890059706400001 := asr_range (by omega)
  rw [mul_assoc]
  exact mul_bounds hp9 (sq_range hq) (by norm_num) (by norm_num)

theorem pressCorrect_sum_range :
    -57139454088790720980056653464065 ≤ p + asr (c.p9 * asr p 13 * asr p 13) 25 + asr (c.p8 * p) 19 ∧
    p + asr (c.p9 * asr p 13 * asr p 13) 25 + asr (c.p8 * p) 19 ≤ 57137710331036610710589479021074 := by
  have h9 := pressCorrect_product_range hc hp
  obtain ⟨-, -, -, -, -, -, -, -, -, -, hp8, -⟩ := hc
  have h8 : -64931868479154710118432768 ≤ c.p8 * p ∧ c.p8 * p ≤ 64931868479154710118432768 :=
    mul_bounds hp8 hp (by norm_num) (by norm_num)
  simp only [asr_eq_div] at h9 h8 ⊢
  omega

theorem pressCorrect_range :
    -223200992534338753828346826883 ≤ pressCorrect c p ∧ pressCorrect c p ≤ 223194180980611760588240676698 := by
  have hsum := pressCorrect_sum_range hc hp
  obtain ⟨-, -, -, -, -, -, -, -, -, hp7, -⟩ := hc
  simp only [pressCorrect, shl_eq_mul, asr_eq_div] at hsum ⊢
  omega

end

section
variable {raw tf : Int} {c : Cal} (htf : -4194224 ≤ tf ∧ tf ≤ 4194144) (hc : c.InRange)
  (hraw : 0 ≤ raw ∧ raw ≤ 1048575)
include htf hc hraw

/-- The quotient: floor division leaves the symmetric range of its numerator to no side (R144). -/
theorem pressQuotient_range (hd : pressDivisor c tf ≠ 0) :
    -1981563369114828800001 ≤ floorDiv (pressNumerator raw c tf) (pressDivisor c tf) ∧
    floorDiv (pressNumerator raw c tf) (pressDivisor c tf) ≤ 1981563369114828800001 := by
  have hnum := pressNumerator_range htf hc hraw
  exact floorDiv_bounds hd (by omega)

theorem compP_range : -223200992534338753828346826883 ≤ (compP raw c tf).1 ∧
    (compP raw c tf).1 ≤ 223194180980611760588240676698 := by
  by_cases hd : pressDivisor c tf = 0
  · rw [compP_of_divisor_zero raw hd]
    norm_num
  · rw [compP_of_divisor_ne_zero raw hd]
    exact pressCorrect_range hc (pressQuotient_range htf hc hraw hd)

end

/-! ## Humidity (R156 to R160) -/

/-- The end of `b` in R156, from the product of its H6 and H3 parts. -/
theorem humScale_range {m h2 : Int} (hm : -288915985900 ≤ m ∧ m ≤ 291190408150) (hh2 : -32768 ≤ h2 ∧ h2 ≤ 32767) :
    -572925568 ≤ asr ((asr m 10 + 2097152) * h2 + 8192) 14 ∧
    asr ((asr m 10 + 2097152) * h2 + 8192) 14 ≤ 572908084 := by
  have hfactor : -280047366 ≤ asr m 10 + 2097152 ∧ asr m 10 + 2097152 ≤ 286462784 := by
    rw [asr_eq_div]
    omega
  have hscaled := mul_bounds hfactor hh2 (lo := -9386812506112) (hi := 9386526043328) (by norm_num) (by norm_num)
  exact asr_range (by omega)

/-- The H1 term of R156, which is subtracted: never negative, since H1 is unsigned. -/
theorem humTerm_range {v h1 : Int} (hv : -209181999983616 ≤ v ∧ v ≤ 209175616365408) (hh1 : 0 ≤ h1 ∧ h1 ≤ 255) :
    0 ≤ asr (asr (asr v 15 * asr v 15) 7 * h1) 4 ∧
    asr (asr (asr v 15 * asr v 15) 7 * h1) 4 ≤ 5074099510883718126 := by
  have hsq := sq_range (x := asr v 15) (m := 6383728027) (asr_range (by omega))
  have hshift : 0 ≤ asr (asr v 15 * asr v 15) 7 ∧ asr (asr v 15 * asr v 15) 7 ≤ 318374871271135255 :=
    asr_range (by omega)
  have hmul := mul_bounds hshift hh1 (lo := 0) (hi := 81185592174139490025) (by norm_num) (by norm_num)
  exact asr_range (by omega)

section
variable {raw tf : Int} {c : Cal} (htf : -4194224 ≤ tf ∧ tf ≤ 4194144) (hc : c.InRange)
include htf hc

theorem humB_range : -572925568 ≤ humB c tf ∧ humB c tf ≤ 572908084 := by
  obtain ⟨-, -, -, -, -, -, -, -, -, -, -, -, -, hh2, hh3, -, -, hh6⟩ := hc
  have hv : -4271024 ≤ tf - 76800 ∧ tf - 76800 ≤ 4117344 := by omega
  have h6 := mul_bounds hv hh6 (lo := -542420048) (hi := 546691072) (by norm_num) (by norm_num)
  have h3 := mul_bounds hv hh3 (lo := -1089111120) (hi := 1049922720) (by norm_num) (by norm_num)
  have h6asr : -529708 ≤ asr ((tf - 76800) * c.h6) 10 ∧ asr ((tf - 76800) * c.h6) 10 ≤ 533878 := asr_range (by omega)
  have h3asr : -531793 ≤ asr ((tf - 76800) * c.h3) 11 ∧ asr ((tf - 76800) * c.h3) 11 ≤ 512657 := asr_range (by omega)
  exact humScale_range
    (mul_bounds (c := -499025) (d := 545425) h6asr (by omega) (by norm_num) (by norm_num)) hh2

variable (hraw : 0 ≤ raw ∧ raw ≤ 65535)
include hraw

theorem humA_range : -332443 ≤ humA raw c tf ∧ humA raw c tf ≤ 365112 := by
  obtain ⟨-, -, -, -, -, -, -, -, -, -, -, -, -, -, -, hh4, hh5, -⟩ := hc
  have h5 : -8742786128 ≤ c.h5 * (tf - 76800) ∧ c.h5 * (tf - 76800) ≤ 8747057152 :=
    mul_bounds (c := -4271024) (d := 4117344) hh5 (by omega) (by norm_num) (by norm_num)
  simp only [humA, shl_eq_mul]
  exact asr_range (by omega)

theorem humProduct_range :
    -209181999983616 ≤ humA raw c tf * humB c tf ∧ humA raw c tf * humB c tf ≤ 209175616365408 :=
  mul_bounds (humA_range htf hc hraw) (humB_range htf hc) (by norm_num) (by norm_num)

end

theorem humUnclamped_range {raw tf : Int} {c : Cal} (hv : -209181999983616 ≤ humA raw c tf * humB c tf ∧
    humA raw c tf * humB c tf ≤ 209175616365408) (hh1 : 0 ≤ c.h1 ∧ c.h1 ≤ 255) :
    -5074308692883701742 ≤ humUnclamped raw c tf ∧ humUnclamped raw c tf ≤ 209175616365408 := by
  have hterm := humTerm_range hv hh1
  simp only [humUnclamped]
  omega

/-- Settles O20: the rows in R170's order, the bounds of the P9 product and of the sum rounded outward. -/
theorem intermediateBounds : Obligations.IntermediateBounds := by
  intro c hc
  refine ⟨fun raw h0 h1 => ?temperature, fun tf hlo hhi => ⟨fun raw h0 h1 => ?pressure, fun raw h0 h1 => ?humidity⟩⟩
  case temperature =>
    have hraw := And.intro h0 h1
    exact ⟨tempVar1_product_range hc hraw, tempVar2_square_range hc hraw, tempVar2_product_range hc hraw,
      tFine_range hc hraw, tempOfTfine_range hc hraw⟩
  case pressure =>
    have hraw := And.intro h0 h1
    have htf := And.intro hlo hhi
    refine ⟨pressOffset_range htf hc, pressDivisor_product_range htf hc, pressDivisor_range htf hc,
      pressNumerator_range htf hc hraw, fun hd => ?_, compP_range htf hc hraw⟩
    have hp := pressQuotient_range htf hc hraw hd
    have hprod := pressCorrect_product_range hc hp
    have hsum := pressCorrect_sum_range hc hp
    exact ⟨hp, by omega, by omega⟩
  case humidity =>
    have hraw := And.intro h0 h1
    have htf := And.intro hlo hhi
    have hv := humProduct_range htf hc hraw
    have hA := humA_range htf hc hraw
    have hB := humB_range htf hc
    obtain ⟨-, -, -, -, -, -, -, -, -, -, -, -, hh1, -⟩ := hc
    exact ⟨hA, hB, hv, humTerm_range hv hh1, humUnclamped_range hv hh1, compH_range raw c tf⟩

end Sys2Proof.Machine
end

section
/-! The family of 60_exceptions.md: a frame that any check of R182 stops, whatever the code. -/

namespace Sys2Proof.Machine

/-- Settles O38: the code that the first check decides is the one `step_failsWith_firstCheck` frames, and every check's
failure runs through the one operation `fail`. -/
theorem failureChangesNothingElse : Obligations.FailureChangesNothingElse := fun _ _ _ hp hfail =>
  step_failsWith_firstCheck hp rfl hfail

end Sys2Proof.Machine
end

section
/-! What only a reset takes away (70_reset_and_hazards.md R222): every command keeps it, every step other than the reset
does, and so does every run with no reset pending. -/

namespace Sys2Proof.Machine

/-- `t` has everything that only a reset takes away from `s`: a loaded CAL with its CAL_VALID, TV and ERR_SEEN. -/
structure KeepsUntilReset (s t : State) : Prop where
  loaded : s.flag .calValid = 1 → t.cal = s.cal ∧ t.flag .calValid = 1
  tv : s.flag .tv = 1 → t.flag .tv = 1
  errSeen : s.flag .errSeen = 1 → t.flag .errSeen = 1

namespace KeepsUntilReset

/-- It speaks of CAL and STATUS only. -/
theorem of_same {s t : State} (hcal : t.cal = s.cal) (hstatus : t.status = s.status) : KeepsUntilReset s t := by
  have hflag (f : StatusField) : t.flag f = s.flag f := congrArg (readField · f) hstatus
  exact ⟨fun h => ⟨hcal, (hflag _).trans h⟩, (hflag _).trans, (hflag _).trans⟩

theorem refl (s : State) : KeepsUntilReset s s := of_same rfl rfl

theorem trans {s t u : State} (hst : KeepsUntilReset s t) (htu : KeepsUntilReset t u) : KeepsUntilReset s u where
  loaded h := by
    obtain ⟨hcal, hvalid⟩ := hst.loaded h
    obtain ⟨hcal', hvalid'⟩ := htu.loaded hvalid
    exact ⟨hcal'.trans hcal, hvalid'⟩
  tv h := htu.tv (hst.tv h)
  errSeen h := htu.errSeen (hst.errSeen h)

end KeepsUntilReset

/-! ## The commands -/

section
variable {s t : State}

/-- A failure sets ERR_SEEN and leaves CAL and the valid bits (R185). -/
theorem fail_keepsUntilReset (s : State) (e : ResultCode) : KeepsUntilReset s (s.fail e) where
  loaded h := by simp [h]
  tv h := by simp [h]
  errSeen _ := s.fail_flag_errSeen e

/-- LOADCAL does replace CAL, but it succeeds only while none is loaded (R100). -/
theorem afterLoadcal_keepsUntilReset (hcal : s.flag .calValid = 0) (pl : Payload) :
    KeepsUntilReset s (afterLoadcal pl s) where
  loaded h := by omega
  tv h := by simp [h]
  errSeen h := by simp [h]

/-- COMPT begins a new cycle, which clears PV and HV but not TV (R130). -/
theorem afterCompt_keepsUntilReset (pl : Payload) (s : State) : KeepsUntilReset s (afterCompt pl s) where
  loaded h := by simp [h]
  tv _ := by simp
  errSeen h := by simp [h]

theorem afterCompp_keepsUntilReset (pl : Payload) (s : State) : KeepsUntilReset s (afterCompp pl s) where
  loaded h := by simp [h]
  tv h := by simp [h]
  errSeen h := by simp [h]

theorem afterComph_keepsUntilReset (pl : Payload) (s : State) : KeepsUntilReset s (afterComph pl s) where
  loaded h := by simp [h]
  tv h := by simp [h]
  errSeen h := by simp [h]

theorem exec_keepsUntilReset {i : Instr} (ht : exec i s = .next t) : KeepsUntilReset s t := by
  obtain ⟨e, he⟩ | ⟨pl, -, -, hcal, he⟩ | ⟨pl, -, -, -, he⟩ | ⟨pl, -, -, -, -, he⟩ | ⟨pl, -, -, -, -, he⟩ :=
    exec_cases ht <;> cases he
  · exact fail_keepsUntilReset s e
  · exact afterLoadcal_keepsUntilReset hcal pl
  · exact afterCompt_keepsUntilReset pl s
  · exact afterCompp_keepsUntilReset pl s
  · exact afterComph_keepsUntilReset pl s

theorem deliver_keepsUntilReset {f : Frame} (ht : deliver f s = .next t) : KeepsUntilReset s t := by
  obtain ⟨i, -, he⟩ | ⟨r, -, he⟩ := deliver_cases ht
  · exact exec_keepsUntilReset he
  · cases he
    exact fail_keepsUntilReset s _

/-! ## Steps and runs -/

/-- R61: a step takes the first pending action, if there is one, and no step adds one. -/
theorem step_pending (ht : step s = .next t) : t.pending = s.pending.tail := by
  obtain ⟨hp, ho⟩ | ⟨f, rest, hp, ho⟩ | ⟨n, rest, hp, ho⟩ | ⟨rest, hp, ho⟩ := step_cases ht <;> rw [hp]
  · cases ho
    exact hp
  · obtain ⟨-, hpend, -⟩ := deliver_sameHostSide ho
    exact hpend
  · obtain ⟨w, -, hw⟩ | ⟨-, hw⟩ := readRegister_cases ho <;> cases hw
    rfl
  · cases ho
    rfl

theorem step_noResetPending (hno : s.NoResetPending) (ht : step s = .next t) : t.NoResetPending := by
  rw [State.NoResetPending, step_pending ht]
  exact fun hmem => hno (List.mem_of_mem_tail hmem)

/-- R222, for one step. -/
theorem step_keepsUntilReset (hno : s.NoResetPending) (ht : step s = .next t) : KeepsUntilReset s t := by
  obtain ⟨-, ho⟩ | ⟨f, rest, -, ho⟩ | ⟨n, rest, -, ho⟩ | ⟨rest, hp, -⟩ := step_cases ht
  · cases ho
    exact .refl s
  · have htake : KeepsUntilReset s (s.takeAction rest).advance := .of_same rfl rfl
    exact htake.trans (deliver_keepsUntilReset ho)
  · obtain ⟨w, -, hw⟩ | ⟨-, hw⟩ := readRegister_cases ho <;> cases hw
    exact .of_same rfl rfl
  · exact absurd (hp ▸ List.mem_cons_self) hno

/-- R222, for a run of any length. -/
theorem run_keepsUntilReset {k : Nat} (hno : s.NoResetPending) (hrun : Host.Core.run Sys2Proof.core k s = .next t) :
    KeepsUntilReset s t := by
  have hstep (u v : State) : KeepsUntilReset s u ∧ u.NoResetPending → step u = .next v →
      KeepsUntilReset s v ∧ v.NoResetPending := fun ⟨hkeeps, hnone⟩ hv =>
    ⟨hkeeps.trans (step_keepsUntilReset hnone hv), step_noResetPending hnone hv⟩
  obtain ⟨hkeeps, -⟩ := run_induction (M := Sys2Proof.core)
    (P := fun u => KeepsUntilReset s u ∧ u.NoResetPending) hstep ⟨.refl s, hno⟩ hrun
  exact hkeeps

end

/-- Settles O43, by induction on the run: each of its steps keeps the loaded set and the bits, and none adds a reset to
what is pending. -/
theorem onlyResetUnloadsCalibration : Obligations.OnlyResetUnloadsCalibration := by
  intro k s t hrun hno
  obtain ⟨hloaded, htv, herrSeen⟩ := run_keepsUntilReset hno hrun
  exact ⟨hloaded, htv, herrSeen⟩

end Sys2Proof.Machine
end

section
/-! The branches of a step that have no lemma yet: a frame by what it decodes to, and the idle step. -/

namespace Sys2Proof.Machine

theorem deliver_of_decode {f : Frame} {i : Instr} {s : State} (h : decode f = .ok i) : deliver f s = exec i s := by
  simp only [deliver, h]

theorem deliver_of_reject {f : Frame} {r : Reject} {s : State} (h : decode f = .error r) :
    deliver f s = .next (s.fail (rejectCode r)) := by
  simp only [deliver, h]

theorem step_idle {s : State} (h : s.pending = []) : step s = .next s := by
  simp only [step, h, idle]

end Sys2Proof.Machine
end

section
/-! The two raw samples (41_compensation.md R131, R132): their payloads by the pseudo-commands (30_encoding.md R92) are the
only ones, up to the nibble that no command reads (93_implementation_defined.md U5); and the frames of the commands. -/

namespace Sys2Proof.Machine

/-! ## The payload of a sample -/

theorem ofNat_and_0xFF (n : Nat) : BitVec.ofNat 8 (n &&& 0xFF) = BitVec.ofNat 8 n := by
  apply BitVec.eq_of_toNat_eq
  rw [Nat.and_two_pow_sub_one_eq_mod n 8, BitVec.toNat_ofNat, BitVec.toNat_ofNat, Nat.mod_mod]

theorem ofNat_eq_byte {n : Nat} {b : Byte} (h : n % 256 = b.toNat) : BitVec.ofNat 8 n = b :=
  BitVec.eq_of_toNat_eq ((BitVec.toNat_ofNat n 8).trans h)

/-- The three bytes of `COMPT.RAW` and `COMPP.RAW` in arithmetic: the sample, shifted left past the reserved nibble. -/
theorem samplePayload_eq (r : Nat) : samplePayload r =
    [BitVec.ofNat 8 (r / 4096), BitVec.ofNat 8 (r / 16), BitVec.ofNat 8 (r % 16 * 16)] := by
  rw [samplePayload, ofNat_and_0xFF, ofNat_and_0xFF, and_0x0F, Nat.shiftRight_eq_div_pow, Nat.shiftRight_eq_div_pow,
    Nat.shiftLeft_eq]

theorem humidityPayload_eq (r : Nat) : humidityPayload r = [BitVec.ofNat 8 (r / 256), BitVec.ofNat 8 r] := by
  rw [humidityPayload, ofNat_and_0xFF, Nat.shiftRight_eq_div_pow]

theorem rawH_bytes (b0 b1 : Byte) : rawH [b0, b1] = 256 * b0.toNat + b1.toNat := rfl

theorem rawTp_samplePayload {r : Nat} (hr : r < 2 ^ 20) : rawTp (samplePayload r) = r := by
  rw [samplePayload_eq, rawTp_bytes]
  simp only [BitVec.toNat_ofNat]
  omega

/-- The sample determines the bytes, except for the nibble it does not hold. -/
theorem samplePayload_rawTp (b0 b1 : Byte) {b2 : Byte} (h : b2.toNat % 16 = 0) :
    samplePayload (rawTp [b0, b1, b2]) = [b0, b1, b2] := by
  rw [rawTp_bytes, samplePayload_eq]
  congr 3 <;> exact ofNat_eq_byte (by omega)

theorem rawH_humidityPayload {r : Nat} (hr : r < 2 ^ 16) : rawH (humidityPayload r) = r := by
  rw [humidityPayload_eq, rawH_bytes]
  simp only [BitVec.toNat_ofNat]
  omega

theorem humidityPayload_rawH (b0 b1 : Byte) : humidityPayload (rawH [b0, b1]) = [b0, b1] := by
  rw [rawH_bytes, humidityPayload_eq]
  congr 2 <;> exact ofNat_eq_byte (by omega)

/-- Settles O10: on the payloads in question, payload and sample determine each other. -/
theorem rawPseudoCommandsEncodeTheirSample : Obligations.RawPseudoCommandsEncodeTheirSample := by
  refine ⟨fun r hr => ⟨rawTp_samplePayload hr, fun b0 b1 b2 hlow h => ?_⟩, fun r hr b0 b1 => ⟨fun h => ?_, fun h => ?_⟩⟩
  · rw [← h, samplePayload_rawTp b0 b1 hlow]
  · rw [← h, humidityPayload_rawH]
  · rw [h, rawH_humidityPayload hr]

/-! ## What a command reads of its payload -/

section
variable {pl pl' : Payload} (hraw : rawTp pl = rawTp pl') (hlen : pl.length = pl'.length) (s : State)
include hraw hlen

/-- COMPT reads of its payload the length and the sample. -/
theorem exec_compt_congr : exec (.compt pl) s = exec (.compt pl') s := by
  simp only [exec, execCompt, lengthError, hlen, hraw]

theorem exec_compp_congr : exec (.compp pl) s = exec (.compp pl') s := by
  simp only [exec, execCompp, lengthError, hlen, hraw]

end

/-- U5: the sample does not hold the low nibble of the third byte. -/
theorem rawTp_eq_of_high_nibble (b0 b1 : Byte) {b2 b3 : Byte} (h : b2 >>> 4 = b3 >>> 4) :
    rawTp [b0, b1, b2] = rawTp [b0, b1, b3] := by
  have hnat : b2.toNat / 16 = b3.toNat / 16 := by
    simpa [Nat.shiftRight_eq_div_pow] using congrArg BitVec.toNat h
  rw [rawTp_bytes, rawTp_bytes, hnat]

/-- Settles O3: the two payloads have one length and one sample. -/
theorem reservedNibbleIsIgnored : Obligations.ReservedNibbleIsIgnored := fun b0 b1 _ _ s h =>
  have hraw := rawTp_eq_of_high_nibble b0 b1 h
  ⟨exec_compt_congr hraw rfl s, exec_compp_congr hraw rfl s⟩

/-- Settles O5: the decoder gives back every command from its frame, and takes no other frame for it. -/
theorem framesAndCommandsCorrespond : Obligations.FramesAndCommandsCorrespond :=
  ⟨decode_encode, fun _ _ => encode_of_decode⟩

end Sys2Proof.Machine
end

section
/-! The invariant (10_state.md R43): every result register holds the exact integer, and steps and resets keep it. -/

namespace Sys2Proof.Machine

/-- While TV = 1, TEMP is the formula's integer. -/
theorem State.Inv.temp_exact {s : State} (h : s.Inv) (htv : s.flag .tv = 1) :
    s.temp.toInt = (compT s.rawT.toNat s.cal).2 := by
  obtain ⟨-, htemp⟩ := h.temperature htv
  have hsample := sample20_range s.rawT
  have hrange := tempOfTfine_range (h.calInRange (h.tvNeedsCal htv)) (raw := s.rawT.toNat) (by omega)
  rw [htemp]
  exact toInt_ofInt_of_abs_le (n := 31) (a := 17) (abs_le.mpr (by simp only [compT]; omega)) (by norm_num)

/-- Settles O21: register by register, each while its valid bit is 1. -/
theorem registersHoldExactResults : Obligations.RegistersHoldExactResults := by
  intro s h
  refine ⟨fun htv => ⟨?_, h.temp_exact htv⟩, h.press_exact, h.hum_exact⟩
  obtain ⟨htfine, -⟩ := h.tfine_exact htv
  exact htfine

/-- Settles O45: with every flag 0 nothing is claimed of the registers, and the pending list is not spoken of. -/
theorem invHoldsAfterReset : Obligations.InvHoldsAfterReset := resetWith_inv

/-- Settles O46, by the cases of a step and, for a frame, of the command (`step_keeps_inv`). -/
theorem everyStepKeepsInv : Obligations.EveryStepKeepsInv := fun _ _ => step_keeps_inv

end Sys2Proof.Machine
end

section
/-! What the host can observe (10_state.md R39, R40): states that agree on it read alike, and step to such states again. -/

namespace Sys2Proof.Machine

/-- `s` and `t` hold the same values wherever a valid bit of `s` is 1. -/
structure SameValues (s t : State) : Prop where
  cal : s.flag .calValid = 1 → s.cal = t.cal
  temperature : s.flag .tv = 1 → SameTemperature t s
  pressure : s.flag .pv = 1 → SamePressure t s
  humidity : s.flag .hv = 1 → SameHumidity t s

/-- What equal views are (`view_eq_iff`): STATUS, the values behind the valid bits, and the host's side agree. -/
structure SameView (s t : State) : Prop extends SameValues s t where
  status : s.status = t.status
  hostSide : SameHostSide t s

/-! ## Reads -/

theorem validWhen_congr {s t : State} {f : StatusField} {v w : Option RegWord} (hbit : s.flag f = t.flag f)
    (hvalue : s.flag f = 1 → v = w) : s.validWhen f v = t.validWhen f w := by
  unfold State.validWhen
  rw [← hbit]
  exact if_ctx_congr Iff.rfl hvalue fun _ => rfl

/-- R39: a data register reads alike in two states with the same valid bits and the same values behind them. -/
theorem register_congr {s t : State} (hbits : ∀ f ∈ [StatusField.calValid, .tv, .pv, .hv], s.flag f = t.flag f)
    (h : SameValues s t) {n : Nat} (hn : n ≠ 0) : s.register n = t.register n := by
  obtain hresult | hgap | hcal : n < 0x08 ∨ (0x08 ≤ n ∧ n ≤ 0x0F) ∨ 0x10 ≤ n := by omega
  · have hT := hbits .tv (by decide)
    have hP := hbits .pv (by decide)
    have hH := hbits .hv (by decide)
    interval_cases n
    · contradiction
    · exact validWhen_congr hT fun hv => by simp only [h.temperature hv]
    · exact validWhen_congr hT fun hv => by simp only [h.temperature hv]
    · exact validWhen_congr hP fun hv => by simp only [h.pressure hv]
    · exact validWhen_congr hH fun hv => by simp only [h.humidity hv]
    · exact validWhen_congr hT fun hv => by simp only [h.temperature hv]
    · exact validWhen_congr hP fun hv => by simp only [h.pressure hv]
    · exact validWhen_congr hH fun hv => by simp only [h.humidity hv]
  · rw [register_unassigned s (.inl hgap), register_unassigned t (.inl hgap)]
  · obtain ⟨k, rfl⟩ := Nat.exists_eq_add_of_le hcal
    rw [register_cal, register_cal]
    exact validWhen_congr (hbits .calValid (by decide)) fun hv => by rw [h.cal hv]

/-- Settles O39: a failure leaves the valid bits and every data register (O38), and a read depends on no more. -/
theorem failureKeepsOldResultsReadable : Obligations.FailureKeepsOldResultsReadable := by
  intro s f rest hp hfail
  obtain ⟨t, ht, -, -, hflags, hcal, htemp, hpress, hhum, -⟩ := failureChangesNothingElse s f rest hp hfail
  have hvalues : SameValues t s := ⟨fun _ => hcal, fun _ => htemp, fun _ => hpress, fun _ => hhum⟩
  have hbits (g : StatusField) (hg : g ∈ [StatusField.calValid, .tv, .pv, .hv]) : t.flag g = s.flag g :=
    hflags g (by revert g; decide)
  exact ⟨t, ht, fun _ hn => register_congr hbits hvalues hn⟩

/-! ## Views -/

theorem ite_some_eq_iff {α : Type} {p : Prop} [Decidable p] {a b : α} :
    (if p then some a else none) = (if p then some b else none) ↔ (p → a = b) := by
  split_ifs with hp <;> simp [hp]

theorem flag_congr {s t : State} (h : s.status = t.status) (f : StatusField) : s.flag f = t.flag f :=
  congrArg (readField · f) h

/-- A view hides exactly what stands behind a cleared valid bit. -/
theorem view_eq_iff {s t : State} : s.view = t.view ↔ SameView s t := by
  constructor
  · intro h
    simp only [State.view, View.mk.injEq] at h
    obtain ⟨hstatus, hcal, htemp, hpress, hhum, hhost⟩ := h
    simp only [← flag_congr hstatus, ite_some_eq_iff, Prod.mk.injEq] at hcal htemp hpress hhum
    exact ⟨⟨hcal, htemp, hpress, hhum⟩, hstatus, hhost⟩
  · rintro ⟨⟨hcal, htemp, hpress, hhum⟩, hstatus, hhost⟩
    simp only [State.view, View.mk.injEq, ← flag_congr hstatus, ite_some_eq_iff, Prod.mk.injEq]
    exact ⟨hstatus, hcal, htemp, hpress, hhum, hhost⟩

section
variable {s t : State} (h : SameView s t)
include h

theorem sameView_takeAction (rest : List HostAction) : SameView (s.takeAction rest) (t.takeAction rest) := by
  obtain ⟨hpos, -, hans⟩ := h.hostSide
  exact { h with hostSide := ⟨hpos, rfl, hans⟩ }

theorem sameView_advance : SameView s.advance t.advance := by
  obtain ⟨hpos, hpend, hans⟩ := h.hostSide
  exact { h with hostSide := ⟨congrArg (· + 1) hpos, hpend, hans⟩ }

theorem sameView_giveAnswer (w : RegWord) : SameView (s.giveAnswer w) (t.giveAnswer w) := by
  obtain ⟨hpos, hpend, hans⟩ := h.hostSide
  exact { h with hostSide := ⟨hpos, hpend, congrArg (· ++ [w]) hans⟩ }

theorem sameView_powerOnReset : SameView s.powerOnReset t.powerOnReset where
  cal _ := rfl
  temperature _ := ⟨rfl, rfl, rfl⟩
  pressure _ := ⟨rfl, rfl⟩
  humidity _ := ⟨rfl, rfl⟩
  status := rfl
  hostSide := h.hostSide

theorem sameView_fail (e : ResultCode) : SameView (s.fail e) (t.fail e) where
  cal hv := h.cal (by simpa using hv)
  temperature hv := h.temperature (by simpa using hv)
  pressure hv := h.pressure (by simpa using hv)
  humidity hv := h.humidity (by simpa using hv)
  status := by simp [h.status]
  hostSide := h.hostSide

theorem sameView_afterLoadcal (pl : Payload) : SameView (afterLoadcal pl s) (afterLoadcal pl t) where
  cal _ := rfl
  temperature hv := h.temperature (by simpa using hv)
  pressure hv := h.pressure (by simpa using hv)
  humidity hv := h.humidity (by simpa using hv)
  status := by simp [h.status]
  hostSide := h.hostSide

/-- COMPT reads CAL only, and clears PV and HV. -/
theorem sameView_afterCompt (hcal : s.flag .calValid = 1) (pl : Payload) :
    SameView (afterCompt pl s) (afterCompt pl t) where
  cal _ := h.cal hcal
  temperature _ := by simp [SameTemperature, h.cal hcal]
  pressure hv := by simp at hv
  humidity hv := by simp at hv
  status := by simp [h.status]
  hostSide := h.hostSide

/-- COMPP reads CAL and TFINE. -/
theorem sameView_afterCompp (hcal : s.flag .calValid = 1) (htv : s.flag .tv = 1) (pl : Payload) :
    SameView (afterCompp pl s) (afterCompp pl t) := by
  obtain ⟨-, htfine, -⟩ := h.temperature htv
  exact
    { cal := fun _ => h.cal hcal
      temperature := fun _ => h.temperature htv
      pressure := fun _ => by simp [SamePressure, h.cal hcal, htfine]
      humidity := fun hv => h.humidity (by simpa using hv)
      status := by simp [h.status, h.cal hcal, htfine]
      hostSide := h.hostSide }

theorem sameView_afterComph (hcal : s.flag .calValid = 1) (htv : s.flag .tv = 1) (pl : Payload) :
    SameView (afterComph pl s) (afterComph pl t) := by
  obtain ⟨-, htfine, -⟩ := h.temperature htv
  exact
    { cal := fun _ => h.cal hcal
      temperature := fun _ => h.temperature htv
      pressure := fun hv => h.pressure (by simpa using hv)
      humidity := fun _ => by simp [SameHumidity, h.cal hcal, htfine]
      status := by simp [h.status, h.cal hcal, htfine]
      hostSide := h.hostSide }

/-- A command that passes its checks reads only what a valid bit vouches for. -/
theorem sameView_afterCommand {i : Instr} (hchecks : commandError i s = none) :
    SameView (afterCommand i s) (afterCommand i t) := by
  cases i with
  | loadcal pl => exact sameView_afterLoadcal h pl
  | compt pl =>
    obtain ⟨-, hcal⟩ := commandError_compt.mp hchecks
    exact sameView_afterCompt h hcal pl
  | compp pl =>
    obtain ⟨⟨-, hcal⟩, htv⟩ := commandError_compp.mp hchecks
    exact sameView_afterCompp h hcal htv pl
  | comph pl =>
    obtain ⟨⟨-, hcal⟩, htv⟩ := commandError_comph.mp hchecks
    exact sameView_afterComph h hcal htv pl

/-! ## Outcomes -/

/-- The checks of a command read STATUS only. -/
theorem commandError_congr (i : Instr) : commandError i s = commandError i t := by
  cases i <;> simp only [commandError, lockedError, noCalError, noTfineError, flag_congr h.status]

theorem sameOutcome_exec (i : Instr) : SameOutcome (exec i s) (exec i t) := by
  have hchecks := commandError_congr h i
  cases he : commandError i s with
  | none =>
    rw [exec_of_no_error he, exec_of_no_error (hchecks ▸ he)]
    exact view_eq_iff.mpr (sameView_afterCommand h he)
  | some e =>
    rw [exec_of_error he, exec_of_error (hchecks ▸ he)]
    exact view_eq_iff.mpr (sameView_fail h e)

theorem sameOutcome_deliver (f : Frame) : SameOutcome (deliver f s) (deliver f t) := by
  cases hd : decode f with
  | ok i =>
    rw [deliver_of_decode hd, deliver_of_decode hd]
    exact sameOutcome_exec h i
  | error r =>
    rw [deliver_of_reject hd, deliver_of_reject hd]
    exact view_eq_iff.mpr (sameView_fail h _)

/-- STATUS is always read alike, and the other registers by their valid bits. -/
theorem register_eq_of_sameView (n : Nat) : s.register n = t.register n := by
  obtain rfl | hn := eq_or_ne n 0
  · exact congrArg (fun status => some (RegWord.mk 16 status)) h.status
  · exact register_congr (fun f _ => flag_congr h.status f) h.toSameValues hn

theorem sameOutcome_readRegister (n : Nat) : SameOutcome (readRegister n s) (readRegister n t) := by
  rw [readRegister, readRegister, ← register_eq_of_sameView h]
  cases s.register n with
  | none => exact rfl
  | some w => exact view_eq_iff.mpr (sameView_giveAnswer h w)

end

/-- Settles O48: each action of the host reads only what both states have in common. -/
theorem hiddenValuesNeverMatter : Obligations.HiddenValuesNeverMatter := by
  intro s t hview
  have h := view_eq_iff.mp hview
  obtain ⟨-, hpend, -⟩ := h.hostSide
  cases ht : t.pending with
  | nil =>
    rw [step_idle ht, step_idle (hpend.trans ht)]
    exact hview
  | cons a rest =>
    have htake := sameView_takeAction h rest
    cases a with
    | deliver f =>
      rw [step_deliver ht, step_deliver (hpend.trans ht)]
      exact sameOutcome_deliver (sameView_advance htake) f
    | read n =>
      rw [step_read ht, step_read (hpend.trans ht)]
      exact sameOutcome_readRegister htake n
    | reset =>
      rw [step_reset ht, step_reset (hpend.trans ht)]
      exact view_eq_iff.mpr (sameView_powerOnReset htake)

end Sys2Proof.Machine
end

section
/-! The order of COMPP and COMPH within a cycle (70_reset_and_hazards.md section 3). -/

namespace Sys2Proof.Machine

section
variable (p h : Payload) (s : State)

/-- The two commands write disjoint fields of STATUS, apart from CODE, which both clear. -/
theorem afterComph_afterCompp_status :
    (afterComph h (afterCompp p s)).status = (afterCompp p (afterComph h s)).status := by
  refine status_ext fun f => ?_
  change (afterComph h (afterCompp p s)).flag f = (afterCompp p (afterComph h s)).flag f
  cases f with
  | pz =>
    rw [afterComph_sameFlags h _ .pz (by decide), afterCompp_pz, afterCompp_pz]
    rfl
  | hcl =>
    rw [afterCompp_sameFlags p _ .hcl (by decide), afterComph_hcl, afterComph_hcl]
    rfl
  | calValid | tv | pv | hv | errSeen | code | reserved => simp

/-- Neither command writes what the other reads. -/
theorem afterComph_afterCompp_comm : afterComph h (afterCompp p s) = afterCompp p (afterComph h s) :=
  congrArg (fun status => { afterCompp p (afterComph h s) with status := status }) (afterComph_afterCompp_status p h s)

end

/-- Settles O29: after either command the other still finds CAL_VALID and TV set, and the writes commute. -/
theorem pressureAndHumidityCommute : Obligations.PressureAndHumidityCommute := by
  intro s p h hp hh hcal htv
  refine ⟨afterCompp p s, afterComph h s, afterComph h (afterCompp p s), exec_compp_succeeds hp hcal htv,
    exec_comph_succeeds hh (by simpa using hcal) (by simpa using htv), exec_comph_succeeds hh hcal htv, ?_,
    by simp, by simp⟩
  rw [afterComph_afterCompp_comm]
  exact exec_compp_succeeds hp (by simpa using hcal) (by simpa using htv)

end Sys2Proof.Machine
end

section
/-! Single steps, and runs of frames from reset (60_exceptions.md R199). -/

namespace Sys2Proof.Machine

/-- Settles O34: a delivered frame that decodes runs its command. -/
theorem stepRunsTheDecodedCommand : Obligations.StepRunsTheDecodedCommand := fun _ _ _ _ hp hd =>
  (step_deliver hp).trans (deliver_of_decode hd)

/-- Settles O49: `powerOnReset` keeps the three fields of the host's side. -/
theorem resetLeavesTheHostSide : Obligations.ResetLeavesTheHostSide := fun _ _ hp =>
  ⟨_, step_reset hp, rfl, rfl, rfl⟩

/-- The converse of `run_succ`. -/
theorem run_of_step {M : Host.Core} {s u : M.State} (h : M.step s = .next u) (k : Nat) :
    M.run (k + 1) s = M.run k u := by
  rw [Host.Core.run, h]

/-- CODE is 0 after step number `k`, from 0, of a run from `s`: where that step delivers a frame, the frame succeeds. -/
def SucceedsAt (s : State) (k : Nat) : Prop :=
  ∃ u, Host.Core.run Sys2Proof.core (k + 1) s = .next u ∧ u.flag .code = 0

section
variable {s u : State} (h : step s = .next u)
include h

theorem succeedsAt_zero : SucceedsAt s 0 ↔ u.flag .code = 0 := by
  have hrun : Host.Core.run Sys2Proof.core 1 s = .next u := run_of_step (M := Sys2Proof.core) h 0
  refine ⟨?_, fun hcode => ⟨u, hrun, hcode⟩⟩
  rintro ⟨v, hv, hcode⟩
  cases hrun.symm.trans hv
  exact hcode

theorem succeedsAt_succ (k : Nat) : SucceedsAt s (k + 1) ↔ SucceedsAt u k := by
  rw [SucceedsAt, run_of_step (M := Sys2Proof.core) h, SucceedsAt]

end

/-- A delivered frame leaves the list, advances the position and keeps a run clean if it succeeds (R35, R41). -/
theorem step_deliver_clean {s : State} {f : Frame} {rest : List HostAction} (hp : s.pending = .deliver f :: rest) :
    ∃ u, step s = .next u ∧ u.pending = rest ∧ u.position = s.position + 1 ∧
      (u.Clean ↔ s.Clean ∧ u.flag .code = 0) := by
  obtain ⟨u, hu, herr⟩ := step_deliver_errSeen hp
  obtain ⟨hframe, -⟩ := positionCountsCommands s u hu
  obtain ⟨hpos, hpend⟩ := hframe f rest hp
  refine ⟨u, hu, hpend, hpos, ?_⟩
  have hs := s.flag_bit (f := .errSeen) rfl
  have hbit := u.flag_bit (f := .errSeen) rfl
  unfold State.Clean
  omega

/-- R199 from any state: the run of all pending frames completes, and it is clean if it began so and every frame
succeeded. -/
theorem run_frames {frames : List Frame} {s : State} (hp : s.pending = frames.map HostAction.deliver) :
    ∃ t, Host.Core.run Sys2Proof.core frames.length s = .next t ∧ t.pending = [] ∧
      t.position = s.position + frames.length ∧
      (t.Clean ↔ s.Clean ∧ ∀ k, k < frames.length → SucceedsAt s k) := by
  induction frames generalizing s with
  | nil => exact ⟨s, rfl, hp, rfl, by simp⟩
  | cons f frames ih =>
    obtain ⟨u, hu, hpend, hpos, hclean⟩ := step_deliver_clean hp
    obtain ⟨t, ht, htpend, htpos, htclean⟩ := ih hpend
    refine ⟨t, (run_of_step (M := Sys2Proof.core) hu _).trans ht, htpend, ?_, ?_⟩
    · rw [htpos, hpos, List.length_cons]
      omega
    · rw [htclean, hclean, List.length_cons, Nat.forall_lt_succ_left, succeedsAt_zero hu, and_assoc]
      simp only [succeedsAt_succ hu]

/-- Settles O44: a run from reset begins clean and at position 0. -/
theorem runsCompleteAndCleanMeansNoFailure : Obligations.RunsCompleteAndCleanMeansNoFailure := by
  intro frames
  obtain ⟨t, ht, hpend, hpos, hclean⟩ := run_frames (s := State.resetWith (frames.map HostAction.deliver)) rfl
  refine ⟨t, ht, hpend, hpos.trans (Nat.zero_add _), hclean.trans ?_⟩
  have hstart : (State.resetWith (frames.map HostAction.deliver)).Clean := State.reset_flag .errSeen
  exact and_iff_right hstart

end Sys2Proof.Machine
end
